-- ==== Sys2Proof/Word.lean ====
section
/-!
DEFINITION. The words of the board logic and the shape its memories have.
Everything the block stores or moves is unsigned (spec/40_address_decoder.md R84); the widest datum is a byte.
-/

namespace Sys2Proof

/-- One 8-bit datum: a stored cell, a bus datum, a port snapshot (spec/20_memory.md R38). -/
abbrev Byte := BitVec 8

/-- One pixel: a 3-bit palette index (spec/10_state.md R20). -/
abbrev Pixel := BitVec 3

/-- A raw CRU address, twice the 12-bit line index (spec/30_encoding.md R55). -/
abbrev CruAddr := BitVec 13

/-- A memory as plain data: (cell index, byte) pairs, in the one canonical form of `Memory.wf`
(strictly rising indices). An index that is not listed has no byte of its own. -/
abbrev Memory := List Host.Cell

end Sys2Proof
end

