-- ==== Sys2Proof/Config.lean ====
section
/-!
DEFINITION. The interfaces of the block (spec/30_encoding.md R50, R51), its configuration record
(spec/00_scope.md R7) and the FREE VALUES: opaque constants that no proof can evaluate, one for each value the spec
leaves unspecified (`Draw`) or to the host.
-/

namespace Sys2Proof

/-! ## Interfaces -/

/-- The four transaction formats of R51. -/
inductive Format where
  | M | CW | CR | EV
  deriving DecidableEq, Repr

/-- A transaction word (R51): the format it arrives in, the decode word, and the separate byte datum of a memory
write. DESIGN CHOICE of the spec (92 D16): the serialisation exists for the opcode table (log 19). -/
structure TxWord where
  format : Format
  word : Nat
  datum : Byte
  deriving DecidableEq, Repr

/-- What arrives at the block (R50): a memory or CRU transaction of the CPU, with the address as presented, or a
trigger, numbered as format EV numbers it (0 FSYNC, 1 REFRESH, 2 POWERON, 3 no event). -/
inductive Event where
  | memRead (raw : Nat)
  | memWrite (raw : Nat) (v : Byte)
  | cruWrite (b : CruAddr) (value : BitVec 1)
  | cruRead (b : CruAddr)
  | trigger (n : BitVec 2)
  deriving DecidableEq, Repr, Inhabited

/-- The Input Source's three 8-bit snapshots (spec/10_state.md R23), an input of a step. -/
structure Ports where
  a : Byte
  b : Byte
  c : Byte
  deriving DecidableEq, Repr, Inhabited

/-- What the world presents for one step: the event, and what `Port(k)` returns in it (spec/42_cru_io.md R129). -/
structure Stimulus where
  event : Event
  ports : Ports
  deriving DecidableEq, Repr, Inhabited

/-! ## Configuration -/

/-- Where `GfxDecode` comes from (spec/41_tile_renderer.md R104, R105): left free, or the reference layout over a
host-supplied graphics ROM with the two distances of R7. Log 10. -/
inductive GfxSource where
  | free
  | layout (planeSize bankStride : Nat) (image : Memory)
  deriving DecidableEq, Repr

/-- The configuration record of R7. `ADDR_MASK` is `Cfg.addrMask`; the collaborator `Crtc` and `PALETTE` are the
opaque constants below. `rom` lists the ROM bytes the host names; a byte it does not name is free. Log 2, log 11. -/
structure Cfg where
  rawAw : Nat
  aw : Nat
  romLo : Nat
  romHi : Nat
  rom : Memory
  vramLo : Nat
  wramLo : Nat
  wramSize : Nat
  aramLo : Nat
  crtc0Lo : Nat
  crtc0Hi : Nat
  crtc1Lo : Nat
  crtc1Hi : Nat
  muxReadAddr : CruAddr
  gfx : GfxSource
  deriving DecidableEq, Repr

/-- `ADDR_MASK = 2^AW - 1` (R7, R8 (3)). -/
def Cfg.addrMask (cfg : Cfg) : Nat := 2 ^ cfg.aw - 1

/-- Video and attribute memory have 1024 cells (R6). -/
def ramCells : Nat := 1024

/-- The six address sets of R8 as (first, last) pairs, in the order of spec/20_memory.md R32. -/
def Cfg.ranges (cfg : Cfg) : List (Nat × Nat) :=
  [(cfg.romLo, cfg.romHi), (cfg.vramLo, cfg.vramLo + 1023), (cfg.wramLo, cfg.wramLo + cfg.wramSize - 1),
   (cfg.aramLo, cfg.aramLo + 1023), (cfg.crtc0Lo, cfg.crtc0Hi), (cfg.crtc1Lo, cfg.crtc1Hi)]

/-- Two address sets have no address in common. -/
abbrev disjointRanges (r q : Nat × Nat) : Prop := r.2 < q.1 ∨ q.2 < r.1

/-- The constraints every configuration meets (R8), with `AW <= RAW_AW` and `WRAM_SIZE >= 1` (R7). -/
abbrev Cfg.Valid (cfg : Cfg) : Prop :=
  cfg.aw ≤ cfg.rawAw ∧ 1 ≤ cfg.wramSize ∧ (∀ r ∈ cfg.ranges, r.1 ≤ r.2 ∧ r.2 ≤ cfg.addrMask) ∧
    cfg.ranges.Pairwise disjointRanges ∧ cfg.muxReadAddr.getLsbD 0 = false

/-! ## Free values: nothing constrains them -/

/-- What an unwritten cell of video memory holds after POWERON number `epoch` (R25, R160). Log 5. -/
opaque Config.powerOnVram : (epoch i : Nat) → Byte

/-- What an unwritten cell of attribute memory holds after POWERON number `epoch` (R25, R160). Log 5. -/
opaque Config.powerOnAram : (epoch i : Nat) → Byte

/-- What a pixel of the frame buffer holds after POWERON number `epoch` (R25, R160). Log 5. -/
opaque Config.powerOnPixel : (epoch py px : Nat) → Pixel

/-- The working-memory image of the first power-up ever (R25). Log 6. -/
opaque Config.wramImage : (i : Nat) → Byte

/-- A ROM byte the configuration does not name (R7). Log 11. -/
opaque Config.romImage : (i : Nat) → Byte

/-- A graphics-ROM byte the configuration does not name (R7, R105). Log 10. -/
opaque Config.gfxImage : (i : Nat) → Byte

/-- `GfxDecode` left open (R104): any function of its four arguments. Log 10. -/
opaque Config.gfxDecode : (bank : BitVec 2) → (code : Byte) → (y x : BitVec 3) → Pixel

/-- The n-th `Draw(8)` on a bus: an unmapped memory read (R82) or an unknown CRU read (R128). Log 4. -/
opaque Config.drawByte : (n : Nat) → Byte

/-- The n-th event nobody placed: any event, with any port snapshots (R43, R150). Log 1. -/
opaque Config.freeStimulus : (n : Nat) → Stimulus

/-- `Crtc.init`, the collaborator's state at power-up (spec/10_state.md R22). Log 9. -/
opaque Config.crtcInit : Nat

/-- `Crtc.statusRead`: the byte and the collaborator's next state (R22, R78). Log 9. -/
opaque Config.crtcStatusRead : (c : Nat) → Byte × Nat

/-- `Crtc.addressWrite`: the collaborator's next state (R22, R79). Log 9. -/
opaque Config.crtcAddressWrite : (v : Byte) → (c : Nat) → Nat

/-- `Crtc.registerRead`: the byte and the collaborator's next state (R22, R80). Log 9. -/
opaque Config.crtcRegisterRead : (c : Nat) → Byte × Nat

/-- `Crtc.registerWrite`: the collaborator's next state (R22, R81). Log 9. -/
opaque Config.crtcRegisterWrite : (v : Byte) → (c : Nat) → Nat

/-- `PALETTE`: the fixed colour of each palette index, as an opaque colour number (R107). Log 22. -/
opaque Config.palette : (index : Pixel) → Nat

end Sys2Proof
end

