-- ==== Sys2Proof/Syntax.lean ====
section
/-!
DEFINITION. The operations of the block (spec/30_encoding.md R52), which stand where an instruction set would.
One constructor per row of spec/opcode_table.json. `a` is the masked address of a memory transaction, `v` the byte
written, `b` the raw CRU address and `value` the bit written; a row whose operands the table fixes has none.
-/

namespace Sys2Proof

/-- The 24 operations of R52, in its order. -/
inductive Instr where
  /-- MRD.ROM, read of the ROM range (R70). -/
  | mrdRom (a : Nat)
  /-- MWR.ROM, write to the ROM range (R71). -/
  | mwrRom (a : Nat) (v : Byte)
  /-- MRD.VRAM, read of video memory (R72). -/
  | mrdVram (a : Nat)
  /-- MWR.VRAM, write of video memory (R73). -/
  | mwrVram (a : Nat) (v : Byte)
  /-- MRD.WRAM, read of working memory (R74). -/
  | mrdWram (a : Nat)
  /-- MWR.WRAM, write of working memory (R75). -/
  | mwrWram (a : Nat) (v : Byte)
  /-- MRD.ARAM, read of attribute memory (R76). -/
  | mrdAram (a : Nat)
  /-- MWR.ARAM, write of attribute memory (R77). -/
  | mwrAram (a : Nat) (v : Byte)
  /-- MRD.CRTC0, display-controller status read (R78). -/
  | mrdCrtc0 (a : Nat)
  /-- MWR.CRTC0, display-controller address select (R79). -/
  | mwrCrtc0 (a : Nat) (v : Byte)
  /-- MRD.CRTC1, display-controller register read (R80). -/
  | mrdCrtc1 (a : Nat)
  /-- MWR.CRTC1, display-controller register write (R81). -/
  | mwrCrtc1 (a : Nat) (v : Byte)
  /-- MRD.UNMAPPED, read of an address in no range (R82). -/
  | mrdUnmapped (a : Nat)
  /-- MWR.UNMAPPED, write of an address in no range (R83). -/
  | mwrUnmapped (a : Nat) (v : Byte)
  /-- CWR.INTACK, interrupt acknowledge (R121). -/
  | cwrIntack
  /-- CWR.MUX1, select input port A (R122). -/
  | cwrMux1
  /-- CWR.MUX2, select input port B (R123). -/
  | cwrMux2
  /-- CWR.MUX3, select input port C (R124). -/
  | cwrMux3
  /-- CWR.OTHER, any other CRU write (R125). -/
  | cwrOther (b : CruAddr) (value : BitVec 1)
  /-- CRD.MUX, read of the multiplexed input line (R127). -/
  | crdMux
  /-- CRD.OTHER, read of any other CRU line (R128). -/
  | crdOther (b : CruAddr)
  /-- FSYNC, the frame-sync trigger (R144). -/
  | fsync
  /-- REFRESH, the display-refresh trigger (R102). -/
  | refresh
  /-- POWERON, a power-down followed by a power-up (R160). -/
  | poweron
  deriving DecidableEq, Repr

/-- The dotted mnemonic of R52. -/
def Instr.mnemonic : Instr → String
  | .mrdRom _ => "MRD.ROM"
  | .mwrRom _ _ => "MWR.ROM"
  | .mrdVram _ => "MRD.VRAM"
  | .mwrVram _ _ => "MWR.VRAM"
  | .mrdWram _ => "MRD.WRAM"
  | .mwrWram _ _ => "MWR.WRAM"
  | .mrdAram _ => "MRD.ARAM"
  | .mwrAram _ _ => "MWR.ARAM"
  | .mrdCrtc0 _ => "MRD.CRTC0"
  | .mwrCrtc0 _ _ => "MWR.CRTC0"
  | .mrdCrtc1 _ => "MRD.CRTC1"
  | .mwrCrtc1 _ _ => "MWR.CRTC1"
  | .mrdUnmapped _ => "MRD.UNMAPPED"
  | .mwrUnmapped _ _ => "MWR.UNMAPPED"
  | .cwrIntack => "CWR.INTACK"
  | .cwrMux1 => "CWR.MUX1"
  | .cwrMux2 => "CWR.MUX2"
  | .cwrMux3 => "CWR.MUX3"
  | .cwrOther _ _ => "CWR.OTHER"
  | .crdMux => "CRD.MUX"
  | .crdOther _ => "CRD.OTHER"
  | .fsync => "FSYNC"
  | .refresh => "REFRESH"
  | .poweron => "POWERON"

end Sys2Proof
end

