-- ==== Sys2Proof/Decode.lean ====
section
/-!
DEFINITION. Decoding and encoding (spec/30_encoding.md), the address mask and the memory map (spec/20_memory.md
R31, R32), and the opcode table (R62). Decoding is total: a word or an event that is no transaction of the block is
rejected by name.
-/

namespace Sys2Proof

/-- Why something that arrived is no transaction of the block. -/
inductive Reject where
  /-- A CRU address with bit 0 set: "only even bit_address values are meaningful" (R55, 92 D6). -/
  | oddCruAddress
  /-- A memory address with more bits than the bus presents (R50). -/
  | rawAddressTooWide
  /-- Event value 3: "no event; not a member of the set" (R51, R59). -/
  | notAnEvent
  /-- A decode word with more bits than its format has (R51). -/
  | wordTooWide
  deriving DecidableEq, Repr

/-! ## The memory map -/

/-- The seven classes of R32. -/
inductive Region where
  | rom | vram | wram | aram | crtc0 | crtc1 | unmapped
  deriving DecidableEq, Repr

/-- `Region(a)` (R32). -/
def region (cfg : Cfg) (a : Nat) : Region :=
  if cfg.romLo ≤ a ∧ a ≤ cfg.romHi then .rom
  else if cfg.vramLo ≤ a ∧ a ≤ cfg.vramLo + 1023 then .vram
  else if cfg.wramLo ≤ a ∧ a ≤ cfg.wramLo + cfg.wramSize - 1 then .wram
  else if cfg.aramLo ≤ a ∧ a ≤ cfg.aramLo + 1023 then .aram
  else if cfg.crtc0Lo ≤ a ∧ a ≤ cfg.crtc0Hi then .crtc0
  else if cfg.crtc1Lo ≤ a ∧ a ≤ cfg.crtc1Hi then .crtc1
  else .unmapped

/-- `a = raw & ADDR_MASK` (R31). Log 27. -/
def maskAddr (cfg : Cfg) (raw : Nat) : Nat := raw &&& cfg.addrMask

/-- The masked address `a` selects the rows of class `r` (R52): it lies in the window and its region is `r`. -/
def selects (cfg : Cfg) (r : Region) (a : Nat) : Bool := decide (a ≤ cfg.addrMask) && decide (region cfg a = r)

/-- The reference configuration `CFG_REF` (R7, R9, R33): the spec's own choice, not a fact of the hardware. Log 2. -/
def cfgRef : Cfg where
  rawAw := 16
  aw := 14
  romLo := 0x0000
  romHi := 0x2FFF
  rom := []
  vramLo := 0x3000
  wramLo := 0x3400
  wramSize := 1024
  aramLo := 0x3800
  crtc0Lo := 0x3E00
  crtc0Hi := 0x3E00
  crtc1Lo := 0x3E01
  crtc1Hi := 0x3E01
  muxReadAddr := 0x0C80
  gfx := .layout 0x2000 0x0800 []

/-! ## The CRU constants (R56) -/

/-- The interrupt-acknowledge address. -/
def intackAddr : CruAddr := 0x0CE2

/-- The three mux-select addresses. -/
def mux1Addr : CruAddr := 0x0CC2

/-- See `mux1Addr`. -/
def mux2Addr : CruAddr := 0x0CC4

/-- See `mux1Addr`. -/
def mux3Addr : CruAddr := 0x0CC6

/-- The raw address is odd: no line of the bus (R55). -/
def oddAddr (b : CruAddr) : Bool := b.getLsbD 0

/-- The write is one of the four that have a row of their own (R56, R120). -/
def namedCruWrite (b : CruAddr) (value : BitVec 1) : Bool :=
  decide (value = 1) && decide (b = intackAddr ∨ b = mux1Addr ∨ b = mux2Addr ∨ b = mux3Addr)

/-! ## Decoding an event (R53, R69, R120, R126) -/

/-- `MemRead`'s dispatch on the masked address (R69). -/
def decodeMemRead (cfg : Cfg) (a : Nat) : Instr :=
  match region cfg a with
  | .rom => .mrdRom a
  | .vram => .mrdVram a
  | .wram => .mrdWram a
  | .aram => .mrdAram a
  | .crtc0 => .mrdCrtc0 a
  | .crtc1 => .mrdCrtc1 a
  | .unmapped => .mrdUnmapped a

/-- `MemWrite`'s dispatch on the masked address (R69). -/
def decodeMemWrite (cfg : Cfg) (a : Nat) (v : Byte) : Instr :=
  match region cfg a with
  | .rom => .mwrRom a v
  | .vram => .mwrVram a v
  | .wram => .mwrWram a v
  | .aram => .mwrAram a v
  | .crtc0 => .mwrCrtc0 a v
  | .crtc1 => .mwrCrtc1 a v
  | .unmapped => .mwrUnmapped a v

/-- `CruWrite` (R120), after its precondition. -/
def decodeCruWrite (b : CruAddr) (value : BitVec 1) : Instr :=
  if b = intackAddr ∧ value = 1 then .cwrIntack
  else if b = mux1Addr ∧ value = 1 then .cwrMux1
  else if b = mux2Addr ∧ value = 1 then .cwrMux2
  else if b = mux3Addr ∧ value = 1 then .cwrMux3
  else .cwrOther b value

/-- `CruRead` (R126), after its precondition. -/
def decodeCruRead (cfg : Cfg) (b : CruAddr) : Instr :=
  if b = cfg.muxReadAddr then .crdMux else .crdOther b

/-- The trigger numbered `n` (R51, format EV). -/
def decodeTrigger (n : BitVec 2) : Except Reject Instr :=
  if n = 0 then .ok .fsync
  else if n = 1 then .ok .refresh
  else if n = 2 then .ok .poweron
  else .error .notAnEvent

/-- The operation an event selects (R52, R53). -/
def decode (cfg : Cfg) : Event → Except Reject Instr
  | .memRead raw =>
    if raw < 2 ^ cfg.rawAw then .ok (decodeMemRead cfg (maskAddr cfg raw)) else .error .rawAddressTooWide
  | .memWrite raw v =>
    if raw < 2 ^ cfg.rawAw then .ok (decodeMemWrite cfg (maskAddr cfg raw) v) else .error .rawAddressTooWide
  | .cruWrite b value => if oddAddr b then .error .oddCruAddress else .ok (decodeCruWrite b value)
  | .cruRead b => if oddAddr b then .error .oddCruAddress else .ok (decodeCruRead cfg b)
  | .trigger n => decodeTrigger n

/-! ## Decoding a transaction word (R51) -/

/-- The number of bits of a format's decode word. -/
def formatWidth (cfg : Cfg) : Format → Nat
  | .M => cfg.aw + 1
  | .CW => 14
  | .CR => 13
  | .EV => 2

/-- The transaction a word stands for, its fields taken apart as R51 lays them out. -/
def wordFields (cfg : Cfg) (t : TxWord) : Event :=
  match t.format with
  | .M => if t.word / 2 ^ cfg.aw = 0 then .memRead (t.word % 2 ^ cfg.aw) else .memWrite (t.word % 2 ^ cfg.aw) t.datum
  | .CW => .cruWrite (BitVec.ofNat 13 (t.word / 2)) (BitVec.ofNat 1 t.word)
  | .CR => .cruRead (BitVec.ofNat 13 t.word)
  | .EV => .trigger (BitVec.ofNat 2 t.word)

/-- The event of a word, or the rejection of a word wider than its format. -/
def wordEvent (cfg : Cfg) (t : TxWord) : Except Reject Event :=
  if t.word < 2 ^ formatWidth cfg t.format then .ok (wordFields cfg t) else .error .wordTooWide

/-- The operation a transaction word selects. -/
def decodeWord (cfg : Cfg) (t : TxWord) : Except Reject Instr :=
  match wordEvent cfg t with
  | .ok e => decode cfg e
  | .error r => .error r

/-! ## Encoding (R51, R56) -/

/-- A format-M read word: kind 0. -/
def memReadWord (a : Nat) : TxWord := ⟨.M, a, 0⟩

/-- A format-M write word: kind 1 in bit AW. -/
def memWriteWord (cfg : Cfg) (a : Nat) (v : Byte) : TxWord := ⟨.M, 2 ^ cfg.aw + a, v⟩

/-- A format-CW word: the raw address in bits 13:1, the bit written in bit 0. -/
def cruWriteWord (b : CruAddr) (value : BitVec 1) : TxWord := ⟨.CW, b.toNat * 2 + value.toNat, 0⟩

/-- A format-CR word: the raw address. -/
def cruReadWord (b : CruAddr) : TxWord := ⟨.CR, b.toNat, 0⟩

/-- A format-EV word. -/
def triggerWord (n : Nat) : TxWord := ⟨.EV, n, 0⟩

/-- The word of a well-formed operation. -/
def encode (cfg : Cfg) : Instr → TxWord
  | .mrdRom a => memReadWord a
  | .mwrRom a v => memWriteWord cfg a v
  | .mrdVram a => memReadWord a
  | .mwrVram a v => memWriteWord cfg a v
  | .mrdWram a => memReadWord a
  | .mwrWram a v => memWriteWord cfg a v
  | .mrdAram a => memReadWord a
  | .mwrAram a v => memWriteWord cfg a v
  | .mrdCrtc0 a => memReadWord a
  | .mwrCrtc0 a v => memWriteWord cfg a v
  | .mrdCrtc1 a => memReadWord a
  | .mwrCrtc1 a v => memWriteWord cfg a v
  | .mrdUnmapped a => memReadWord a
  | .mwrUnmapped a v => memWriteWord cfg a v
  | .cwrIntack => cruWriteWord intackAddr 1
  | .cwrMux1 => cruWriteWord mux1Addr 1
  | .cwrMux2 => cruWriteWord mux2Addr 1
  | .cwrMux3 => cruWriteWord mux3Addr 1
  | .cwrOther b value => cruWriteWord b value
  | .crdMux => cruReadWord cfg.muxReadAddr
  | .crdOther b => cruReadWord b
  | .fsync => triggerWord 0
  | .refresh => triggerWord 1
  | .poweron => triggerWord 2

/-! ## The machine-readable table (R62) -/

/-- A row of spec/opcode_table.json. -/
structure TableRow where
  format : Format
  mask : Nat
  pattern : Nat
  mnemonic : String
  deriving DecidableEq, Repr

/-- The rows of spec/opcode_table.json in its order. The numbers of format M and of CRD.MUX are those of `CFG_REF`. -/
def opcodeTable : List TableRow :=
  [⟨.M, 0x7C00, 0x3000, "MRD.VRAM"⟩, ⟨.M, 0x7C00, 0x7000, "MWR.VRAM"⟩,
   ⟨.M, 0x7C00, 0x3400, "MRD.WRAM"⟩, ⟨.M, 0x7C00, 0x7400, "MWR.WRAM"⟩,
   ⟨.M, 0x7C00, 0x3800, "MRD.ARAM"⟩, ⟨.M, 0x7C00, 0x7800, "MWR.ARAM"⟩,
   ⟨.M, 0x7FFF, 0x3E00, "MRD.CRTC0"⟩, ⟨.M, 0x7FFF, 0x7E00, "MWR.CRTC0"⟩,
   ⟨.M, 0x7FFF, 0x3E01, "MRD.CRTC1"⟩, ⟨.M, 0x7FFF, 0x7E01, "MWR.CRTC1"⟩,
   ⟨.M, 0x7C00, 0x3C00, "MRD.UNMAPPED"⟩, ⟨.M, 0x7C00, 0x7C00, "MWR.UNMAPPED"⟩,
   ⟨.M, 0x4000, 0x0000, "MRD.ROM"⟩, ⟨.M, 0x4000, 0x4000, "MWR.ROM"⟩,
   ⟨.CW, 0x3FFF, 0x19C5, "CWR.INTACK"⟩, ⟨.CW, 0x3FFF, 0x1985, "CWR.MUX1"⟩,
   ⟨.CW, 0x3FFF, 0x1989, "CWR.MUX2"⟩, ⟨.CW, 0x3FFF, 0x198D, "CWR.MUX3"⟩,
   ⟨.CW, 0x0000, 0x0000, "CWR.OTHER"⟩,
   ⟨.CR, 0x1FFF, 0x0C80, "CRD.MUX"⟩, ⟨.CR, 0x0000, 0x0000, "CRD.OTHER"⟩,
   ⟨.EV, 0x3, 0x0, "FSYNC"⟩, ⟨.EV, 0x3, 0x1, "REFRESH"⟩, ⟨.EV, 0x3, 0x2, "POWERON"⟩]

/-- The row's mask and match agree with the word (R62). -/
def TableRow.matchesWord (row : TableRow) (f : Format) (w : Nat) : Bool :=
  decide (row.format = f) && decide (w &&& row.mask = row.pattern)

/-- The first row of the word's format that matches (R62). -/
def tableSelect (f : Format) (w : Nat) : Option String :=
  (opcodeTable.find? (·.matchesWord f w)).map (·.mnemonic)

/-! ## A word of the table on its own

"nothing in a word distinguishes the formats, so a word is always accompanied by its format" (R53). The host's table
words come with a width only, so this view names a format for each: DESIGN CHOICE, log 19. -/

/-- The format in which a table word of `nbits` bits is read: one byte is an event; of the two-byte words the five
that the table lists whole under CW and CR are read so, every other one as a memory transaction; a word of no bits, which
only an otherwise-row could have, as a CRU write. -/
def tableFormat (nbits w : Nat) : Format :=
  if nbits = 0 then .CW
  else if nbits ≤ 8 then .EV
  else if w ∈ [0x19C5, 0x1985, 0x1989, 0x198D] then .CW
  else if w = cfgRef.muxReadAddr.toNat then .CR
  else .M

/-- The transaction word of a table word: the decode word in its two bytes (one for an event), and above them the
byte datum, which the table gives no bits. -/
def tableWord (nbits w : Nat) : TxWord :=
  match tableFormat nbits w with
  | .M => ⟨.M, w % 2 ^ 16, BitVec.ofNat 8 (w / 2 ^ 16)⟩
  | f => ⟨f, w, 0⟩

/-- The operation the decoder reads from a word of spec/opcode_table.json, under `CFG_REF`. -/
def decodeTableWord (nbits w : Nat) : Option Instr :=
  match decodeWord cfgRef (tableWord nbits w) with
  | .ok i => some i
  | .error _ => none

end Sys2Proof
end

