-- ==== Sys2Proof/Machine/State.lean ====
section
/-!
DEFINITION. The board-state aggregate (spec/10_state.md R12), what surrounds it in the model (the configuration, the
events waiting, the outputs made), the outcomes a step can end in, and the state after power-up (R25).
-/

namespace Sys2Proof.Machine

/-- The level of the interrupt line (spec/10_state.md R18). -/
inductive Line where
  | clear | asserted
  deriving DecidableEq, Repr

/-- What the block does that the outside sees (spec/70_reset_and_hazards.md R170): a read's result on the bus, or a
call of the interrupt output (spec/60_exceptions.md R143). -/
inductive Output where
  | readResult (v : Byte)
  | setInterruptLine (level : Nat) (state : Line)
  deriving DecidableEq, Repr

/-- The frame buffer `fb[py][px]` (spec/10_state.md R20). -/
abbrev Picture := Vector (Vector Pixel 256) 256

/-- The machine. The first eight fields are the aggregate of R12; the rest are the model's own (INVENTORY.md). -/
structure State where
  /-- Video memory: the cells written since the last POWERON, by index (R13). -/
  vram : Memory
  /-- Attribute memory, likewise (R14). -/
  aram : Memory
  /-- Working memory: the cells written since the first power-up (R15). -/
  wram : Memory
  /-- `mux_sel` (R17). -/
  muxSel : BitVec 2
  /-- `int_line` (R18). -/
  intLine : Line
  /-- The dirty set, one flag per slot (R19). -/
  dirty : Vector Bool 1024
  /-- The frame buffer (R20). -/
  fb : Picture
  /-- The display-controller collaborator's opaque state (R22), as a code number. Log 9. -/
  crtc : Nat
  /-- The configuration (spec/00_scope.md R7): constant. Log 2. -/
  cfg : Cfg
  /-- The port snapshots presented with the current step (R23). Log 3. -/
  ports : Ports
  /-- The events delivered and not yet taken, oldest first (spec/30_encoding.md R60). Log 1. -/
  pending : List Stimulus
  /-- How many free events have been taken. Log 1. -/
  ticks : Nat
  /-- How many bus draws have been made. Log 4. -/
  draws : Nat
  /-- How many POWERONs the machine has been through since the reset state. Log 5. -/
  epoch : Nat
  /-- The outputs made so far, oldest first (R170). Log 18. -/
  outputs : List Output
  deriving DecidableEq, Repr

/-- No step faults: "No exception-style errors are defined for bus transactions -- every address and transaction is
accepted" (spec/60_exceptions.md R140). The type has no member. -/
inductive Fault where
  deriving DecidableEq, Repr

/-- Why a step or an operation has no meaning. -/
inductive Refusal where
  /-- Raised by an arm of `exec` whose operation has no meaning yet. Safe. -/
  | notModelled (mnemonic : String)
  /-- Raised by `step` for an event that is no transaction of the block (R55, R59). Safe: the hardware cannot
  receive it. Log 13. -/
  | rejected (why : Reject)
  /-- Raised by a meaning whose operand selects another row of the table; the decoder never makes such a term. Safe.
  Log 20. -/
  | operandOfAnotherRow
  deriving DecidableEq, Repr

/-- The frame buffer after POWERON number `epoch`: every pixel drawn (R25, R160). Log 5. -/
@[irreducible] def powerOnPicture (epoch : Nat) : Picture :=
  Vector.ofFn fun py => Vector.ofFn fun px => Config.powerOnPixel epoch py.val px.val

/-- The state after a first power-up (R25), under `CFG_REF`, with no event delivered. The POWERON that leads to it has
driven the interrupt output clear (R160). Log 2, 5, 6, 7, 8, 9. -/
def State.reset : State where
  vram := []
  aram := []
  wram := []
  muxSel := 0
  intLine := .clear
  dirty := Vector.replicate 1024 true
  fb := powerOnPicture 0
  crtc := Config.crtcInit
  cfg := cfgRef
  ports := ⟨0, 0, 0⟩
  pending := []
  ticks := 0
  draws := 0
  epoch := 0
  outputs := [.setInterruptLine 1 .clear]

end Sys2Proof.Machine
end

