-- ==== Sys2Proof/Machine/Ops.lean ====
section
/-!
DEFINITION. The named operations over memories, the collaborator, the outputs and the waiting events. A meaning
changes State through these, `Flags` and `Operands` only.
The block takes no exception and returns from none (spec/60_exceptions.md R140, R147, R148): there is no such
operation here. What the interrupt controller does at an event is `State.driveLine` in `Flags`.
-/

namespace Sys2Proof

/-! ## A memory -/

/-- The byte listed at index `i`, if one is. -/
def Memory.read : Memory → Nat → Option Byte
  | [], _ => none
  | c :: m, i => if c.1 = i then some c.2 else Memory.read m i

/-- Store `v` at index `i`, keeping the indices strictly rising. -/
def Memory.write : Memory → Nat → Byte → Memory
  | [], i, v => [(i, v)]
  | c :: m, i, v =>
    if i < c.1 then (i, v) :: c :: m
    else if c.1 = i then (i, v) :: m
    else c :: Memory.write m i v

/-- The canonical form: strictly rising indices. An unlisted index reads as no byte, so no entry equals it. -/
def Memory.wf : Memory → Bool
  | [] => true
  | c :: m => m.all (fun d => decide (c.1 < d.1)) && Memory.wf m

/-- Every listed index is a cell of a memory of `n` cells. -/
def Memory.inside (n : Nat) (m : Memory) : Bool := m.all fun c => decide (c.1 < n)

namespace Machine

/-- What every meaning answers. -/
abbrev Result := Host.Outcome State Fault Refusal

/-! ## Reading the stores -/

/-- `vram[i]` (R13); a cell not written since POWERON holds its power-on value (R25). -/
def State.vramByte (s : State) (i : Nat) : Byte := (Memory.read s.vram i).getD (Config.powerOnVram s.epoch i)

/-- `aram[i]` (R14). -/
def State.aramByte (s : State) (i : Nat) : Byte := (Memory.read s.aram i).getD (Config.powerOnAram s.epoch i)

/-- `wram[i]` (R15); a cell never written holds the first image's byte (R25). -/
def State.wramByte (s : State) (i : Nat) : Byte := (Memory.read s.wram i).getD (Config.wramImage i)

/-- `ROM[i]` (R16). -/
def romByte (cfg : Cfg) (i : Nat) : Byte := (Memory.read cfg.rom i).getD (Config.romImage i)

/-- `fb[py][px]` (R20); outside the 256 x 256 cells there is no pixel, and no rule reads one. -/
def State.pixel (s : State) (py px : Nat) : Pixel := ((s.fb[py]?).bind (·[px]?)).getD 0

/-- The colour the display shows at a pixel: `PALETTE[fb[py][px]]` (R20, R107). -/
def State.colour (s : State) (py px : Nat) : Nat := Config.palette (s.pixel py px)

/-! ## Changing the stores -/

/-- `vram[i] <- v`. -/
def State.setVram (s : State) (i : Nat) (v : Byte) : State := { s with vram := Memory.write s.vram i v }

/-- `aram[i] <- v`. -/
def State.setAram (s : State) (i : Nat) (v : Byte) : State := { s with aram := Memory.write s.aram i v }

/-- `wram[i] <- v`. -/
def State.setWram (s : State) (i : Nat) (v : Byte) : State := { s with wram := Memory.write s.wram i v }

/-- `mux_sel <- k`. -/
def State.setMux (s : State) (k : BitVec 2) : State := { s with muxSel := k }

/-- `crtc <- c`. -/
def State.setCrtc (s : State) (c : Nat) : State := { s with crtc := c }

/-- Return `v` on the bus: the result of a read. -/
def State.respond (s : State) (v : Byte) : State := { s with outputs := s.outputs ++ [.readResult v] }

/-- Return `Draw(8)`: the next free byte (R82, R128). -/
def State.respondDraw (s : State) : State :=
  { s with outputs := s.outputs ++ [.readResult (Config.drawByte s.draws)], draws := s.draws + 1 }

/-! ## Taking the next event -/

/-- The event as a collaborator can present it: an address within the bus, an even CRU address (R55), a trigger that
exists (R51). -/
def Event.legal (cfg : Cfg) : Event → Bool
  | .memRead raw => decide (raw < 2 ^ cfg.rawAw)
  | .memWrite raw _ => decide (raw < 2 ^ cfg.rawAw)
  | .cruWrite b _ => !oddAddr b
  | .cruRead b => !oddAddr b
  | .trigger n => decide (n ≠ 3)

/-- Every bit of a raw CRU address but bit 0 (R55). -/
def evenMask : CruAddr := 0x1FFE

/-- The free event cut down to one that is legal; every legal event is left as it is. Log 1. -/
def Event.legalise (cfg : Cfg) : Event → Event
  | .memRead raw => .memRead (raw % 2 ^ cfg.rawAw)
  | .memWrite raw v => .memWrite (raw % 2 ^ cfg.rawAw) v
  | .cruWrite b value => .cruWrite (b &&& evenMask) value
  | .cruRead b => .cruRead (b &&& evenMask)
  | .trigger n => .trigger (if n = 3 then 0 else n)

/-- What the next step takes: the oldest waiting event, or, where none waits, any event at all (R43, R150). -/
def State.nextStimulus (s : State) : Stimulus :=
  match s.pending with
  | x :: _ => x
  | [] => ⟨Event.legalise s.cfg (Config.freeStimulus s.ticks).event, (Config.freeStimulus s.ticks).ports⟩

/-- The state in which the taken event is answered: the event has left the list and its port snapshots are presented. -/
def State.take (s : State) : State :=
  match s.pending with
  | x :: rest => { s with pending := rest, ports := x.ports }
  | [] => { s with ticks := s.ticks + 1, ports := (Config.freeStimulus s.ticks).ports }

end Machine

end Sys2Proof
end

