-- ==== Sys2Proof/Machine/Flags.lean ====
section
/-!
DEFINITION. The one-bit state of the block (spec/10_state.md R21): the interrupt line and the dirty flags.
-/

namespace Sys2Proof.Machine

/-- Drive the interrupt line: `int_line <- l ; SetInterruptLine(1, l)` (spec/60_exceptions.md R143, R144). -/
def State.driveLine (s : State) (l : Line) : State :=
  { s with intLine := l, outputs := s.outputs ++ [.setInterruptLine 1 l] }

/-- `dirty[i]` (spec/10_state.md R19); no slot lies outside 0..1023. -/
def State.dirtyAt (s : State) (i : Nat) : Bool := (s.dirty[i]?).getD false

/-- `Invalidate(i)` (spec/41_tile_renderer.md R100). -/
def State.invalidate (s : State) (i : Nat) : State := { s with dirty := s.dirty.setIfInBounds i true }

/-- Clear every dirty flag: each slot has been redrawn or was clean (spec/41_tile_renderer.md R102). -/
def State.cleanAll (s : State) : State := { s with dirty := Vector.replicate 1024 false }

end Sys2Proof.Machine
end

