-- ==== Sys2Proof/WellFormed.lean ====
section
/-!
DEFINITION. Which terms of `Instr` are operations of the block under a configuration: the operands each row of
spec/30_encoding.md R52 is selected by.
-/

namespace Sys2Proof

/-- A CRU write operand of the otherwise-row: an even address and a pair that no named row matches (R55, R125). -/
def otherCruWrite (b : CruAddr) (value : BitVec 1) : Bool := !oddAddr b && !namedCruWrite b value

/-- A CRU read operand of the otherwise-row: an even address other than `MUX_READ_ADDR` (R55, R128). -/
def otherCruRead (cfg : Cfg) (b : CruAddr) : Bool := !oddAddr b && decide (b ≠ cfg.muxReadAddr)

/-- The operands belong to the row. -/
def WellFormed (cfg : Cfg) : Instr → Bool
  | .mrdRom a => selects cfg .rom a
  | .mwrRom a _ => selects cfg .rom a
  | .mrdVram a => selects cfg .vram a
  | .mwrVram a _ => selects cfg .vram a
  | .mrdWram a => selects cfg .wram a
  | .mwrWram a _ => selects cfg .wram a
  | .mrdAram a => selects cfg .aram a
  | .mwrAram a _ => selects cfg .aram a
  | .mrdCrtc0 a => selects cfg .crtc0 a
  | .mwrCrtc0 a _ => selects cfg .crtc0 a
  | .mrdCrtc1 a => selects cfg .crtc1 a
  | .mwrCrtc1 a _ => selects cfg .crtc1 a
  | .mrdUnmapped a => selects cfg .unmapped a
  | .mwrUnmapped a _ => selects cfg .unmapped a
  | .cwrIntack => true
  | .cwrMux1 => true
  | .cwrMux2 => true
  | .cwrMux3 => true
  | .cwrOther b value => otherCruWrite b value
  | .crdMux => true
  | .crdOther b => otherCruRead cfg b
  | .fsync => true
  | .refresh => true
  | .poweron => true

end Sys2Proof
end

