-- ==== Sys2Proof/Machine/Operands.lean ====
section
/-!
DEFINITION. The operands of the operations (spec/30_encoding.md section 4): the cell index of a masked address, the
slot geometry and the (bank, code) of a slot, the graphics decode, the selected input port.
-/

namespace Sys2Proof.Machine

/-! ## Memory operands -/

/-- The cell index `i = a - LO` (R34): no underflow, since the region is already established. -/
def cellIndex (lo a : Nat) : Nat := a - lo

/-- Answer `o` where the masked address selects the row's class; the row's rule gives no effect otherwise. Log 20. -/
def inRow (r : Region) (a : Nat) (s : State) (o : Result) : Result :=
  if selects s.cfg r a then o else .refused .operandOfAnotherRow

/-! ## Slots (R54, R58, R101, R106) -/

/-- The grid row of a slot. -/
def slotRow (i : Nat) : Nat := i >>> 5

/-- The grid column of a slot. -/
def slotCol (i : Nat) : Nat := i &&& 31

/-- The slot that owns the pixel `fb[py][px]`: the inverse of R106. -/
def slotOfPixel (py px : Nat) : Nat := (py / 8) * 32 + px / 8

/-- The tile line `y` of a frame-buffer line: 0..7 downward from the slot's origin. -/
def tileLine (p : Nat) : BitVec 3 := BitVec.ofNat 3 (p % 8)

/-- The graphics bank of slot `i`: `aram[i][1:0]` and nothing else (R103). -/
def State.bankOf (s : State) (i : Nat) : BitVec 2 := (s.aramByte i).extractLsb' 0 2

/-! ## The graphics decode (R104, R105) -/

/-- A byte of `GFXROM`; a byte the host does not name is free. -/
def gfxByte (image : Memory) (k : Nat) : Byte := (Memory.read image k).getD (Config.gfxImage k)

/-- `PlaneByte(p, bank, code, y)` (R105). -/
def planeByte (planeSize bankStride : Nat) (image : Memory) (p : Nat) (bank : BitVec 2) (code : Byte) (y : BitVec 3) :
    Byte :=
  gfxByte image (p * planeSize + bank.toNat * bankStride + code.toNat * 8 + y.toNat)

/-- `PlaneBit(p, bank, code, y, x)`: bit 7 is the leftmost pixel (R105). -/
def planeBit (planeSize bankStride : Nat) (image : Memory) (p : Nat) (bank : BitVec 2) (code : Byte) (y x : BitVec 3) :
    Bool :=
  (planeByte planeSize bankStride image p bank code y).getLsbD (7 - x.toNat)

/-- `GfxDecode(bank, code, y, x)`: left free (R104), or by the reference layout, plane p giving index bit p (R105). -/
def gfxDecode (cfg : Cfg) (bank : BitVec 2) (code : Byte) (y x : BitVec 3) : Pixel :=
  match cfg.gfx with
  | .free => Config.gfxDecode bank code y x
  | .layout ps bs image =>
    BitVec.ofBool (planeBit ps bs image 2 bank code y x) ++ BitVec.ofBool (planeBit ps bs image 1 bank code y x) ++
      BitVec.ofBool (planeBit ps bs image 0 bank code y x)

/-- The index slot `i` shows at `(y, x)` once drawn: `GfxDecode(aram[i][1:0], vram[i], y, x)` (R58, R102). -/
def State.tilePixel (s : State) (i : Nat) (y x : BitVec 3) : Pixel :=
  gfxDecode s.cfg (s.bankOf i) (s.vramByte i) y x

/-! ## The multiplexed input (R129) -/

/-- `ReadMuxInput()`: the selected port's snapshot, all bits set where none is selected. Log 12, log 14. -/
def State.readMuxInput (s : State) : Byte :=
  if s.muxSel = 1 then s.ports.a
  else if s.muxSel = 2 then s.ports.b
  else if s.muxSel = 3 then s.ports.c
  else 0xFF

end Sys2Proof.Machine
end

