-- ==== Sys2Proof/Machine/Cru.lean ====
section
/-!
DEFINITION. The seven CRU operations (spec/42_cru_io.md R121 to R128).
-/

namespace Sys2Proof.Machine

/-- CWR.INTACK (R121). -/
def execCwrIntack (s : State) : Result := .next (s.driveLine .clear)

/-- CWR.MUX1 (R122). -/
def execCwrMux1 (s : State) : Result := .next (s.setMux 1)

/-- CWR.MUX2 (R123). -/
def execCwrMux2 (s : State) : Result := .next (s.setMux 2)

/-- CWR.MUX3 (R124). -/
def execCwrMux3 (s : State) : Result := .next (s.setMux 3)

/-- CWR.OTHER (R125): "silently ignoring them is correct and intentional". Log 21, log 25. -/
def execCwrOther (b : CruAddr) (value : BitVec 1) (s : State) : Result :=
  if otherCruWrite b value then .next s else .refused .operandOfAnotherRow

/-- CRD.MUX (R127). -/
def execCrdMux (s : State) : Result := .next (s.respond s.readMuxInput)

/-- CRD.OTHER (R128): `Draw(8)`. Log 4. -/
def execCrdOther (b : CruAddr) (s : State) : Result :=
  if otherCruRead s.cfg b then .next s.respondDraw else .refused .operandOfAnotherRow

end Sys2Proof.Machine
end

