-- ==== Sys2Proof/Machine/Events.lean ====
section
/-!
DEFINITION. The three external events: FSYNC (spec/60_exceptions.md R144), REFRESH (spec/41_tile_renderer.md R102)
and POWERON (spec/70_reset_and_hazards.md R160).
-/

namespace Sys2Proof.Machine

/-- FSYNC (R144): unconditional. -/
def execFsync (s : State) : Result := .next (s.driveLine .asserted)

/-- The pixel `fb[py][px]` after a refresh: the tile's where its slot is dirty, else what it was. The slots own
disjoint pixels, so the order of R102's loop does not matter. -/
def State.refreshedPixel (s : State) (py px : Nat) : Pixel :=
  if s.dirtyAt (slotOfPixel py px) then s.tilePixel (slotOfPixel py px) (tileLine py) (tileLine px)
  else s.pixel py px

/-- The frame buffer after a refresh. -/
@[irreducible] def State.refreshedPicture (s : State) : Picture :=
  Vector.ofFn fun py => Vector.ofFn fun px => s.refreshedPixel py.val px.val

/-- Store the refreshed picture. -/
def State.redraw (s : State) : State := { s with fb := s.refreshedPicture }

/-- REFRESH (R102). -/
def execRefresh (s : State) : Result := .next s.redraw.cleanAll

/-- What POWERON does but for the interrupt line: the volatile memories, the picture and the collaborator start anew,
every slot is dirty, `wram` stays (R160, R25). Log 5, log 8. -/
def State.powerCycle (s : State) : State :=
  { s with
    muxSel := 0
    vram := []
    aram := []
    dirty := Vector.replicate 1024 true
    fb := powerOnPicture (s.epoch + 1)
    crtc := Config.crtcInit
    epoch := s.epoch + 1 }

/-- POWERON (R160). -/
def execPoweron (s : State) : Result := .next (s.powerCycle.driveLine .clear)

end Sys2Proof.Machine
end

