-- ==== Sys2Proof/Machine/MemoryBus.lean ====
section
/-!
DEFINITION. The fourteen memory-bus operations (spec/40_address_decoder.md R70 to R83). `a` is the masked address.
-/

namespace Sys2Proof.Machine

/-- MRD.ROM (R70). -/
def execMrdRom (a : Nat) (s : State) : Result :=
  inRow .rom a s (.next (s.respond (romByte s.cfg (cellIndex s.cfg.romLo a))))

/-- MWR.ROM (R71): "write attempts are ignored". -/
def execMwrRom (a : Nat) (_v : Byte) (s : State) : Result :=
  inRow .rom a s (.next s)

/-- MRD.VRAM (R72). -/
def execMrdVram (a : Nat) (s : State) : Result :=
  inRow .vram a s (.next (s.respond (s.vramByte (cellIndex s.cfg.vramLo a))))

/-- MWR.VRAM (R73). -/
def execMwrVram (a : Nat) (v : Byte) (s : State) : Result :=
  inRow .vram a s
    (.next ((s.setVram (cellIndex s.cfg.vramLo a) v).invalidate (cellIndex s.cfg.vramLo a)))

/-- MRD.WRAM (R74). -/
def execMrdWram (a : Nat) (s : State) : Result :=
  inRow .wram a s (.next (s.respond (s.wramByte (cellIndex s.cfg.wramLo a))))

/-- MWR.WRAM (R75). -/
def execMwrWram (a : Nat) (v : Byte) (s : State) : Result :=
  inRow .wram a s (.next (s.setWram (cellIndex s.cfg.wramLo a) v))

/-- MRD.ARAM (R76): the whole stored byte. Log 15. -/
def execMrdAram (a : Nat) (s : State) : Result :=
  inRow .aram a s (.next (s.respond (s.aramByte (cellIndex s.cfg.aramLo a))))

/-- MWR.ARAM (R77). -/
def execMwrAram (a : Nat) (v : Byte) (s : State) : Result :=
  inRow .aram a s
    (.next ((s.setAram (cellIndex s.cfg.aramLo a) v).invalidate (cellIndex s.cfg.aramLo a)))

/-- MRD.CRTC0 (R78): `Crtc.statusRead`. Log 9. -/
def execMrdCrtc0 (a : Nat) (s : State) : Result :=
  inRow .crtc0 a s
    (.next ((s.setCrtc (Config.crtcStatusRead s.crtc).2).respond (Config.crtcStatusRead s.crtc).1))

/-- MWR.CRTC0 (R79): `Crtc.addressWrite`. Log 9. -/
def execMwrCrtc0 (a : Nat) (v : Byte) (s : State) : Result :=
  inRow .crtc0 a s (.next (s.setCrtc (Config.crtcAddressWrite v s.crtc)))

/-- MRD.CRTC1 (R80): `Crtc.registerRead`. Log 9. -/
def execMrdCrtc1 (a : Nat) (s : State) : Result :=
  inRow .crtc1 a s
    (.next ((s.setCrtc (Config.crtcRegisterRead s.crtc).2).respond (Config.crtcRegisterRead s.crtc).1))

/-- MWR.CRTC1 (R81): `Crtc.registerWrite`. Log 9. -/
def execMwrCrtc1 (a : Nat) (v : Byte) (s : State) : Result :=
  inRow .crtc1 a s (.next (s.setCrtc (Config.crtcRegisterWrite v s.crtc)))

/-- MRD.UNMAPPED (R82): `Draw(8)`. Log 4. -/
def execMrdUnmapped (a : Nat) (s : State) : Result :=
  inRow .unmapped a s (.next s.respondDraw)

/-- MWR.UNMAPPED (R83): nothing. Log 26. -/
def execMwrUnmapped (a : Nat) (_v : Byte) (s : State) : Result :=
  inRow .unmapped a s (.next s)

end Sys2Proof.Machine
end

