-- ==== Sys2Proof/Machine/Dispatch.lean ====
section
/-!
DEFINITION. One arm per operation of spec/30_encoding.md R52.
-/

namespace Sys2Proof.Machine

def exec (i : Instr) (s : State) : Host.Outcome State Fault Refusal :=
  match i with
  | .mrdRom a => Sys2Proof.Machine.execMrdRom a s
  | .mwrRom a v => Sys2Proof.Machine.execMwrRom a v s
  | .mrdVram a => Sys2Proof.Machine.execMrdVram a s
  | .mwrVram a v => Sys2Proof.Machine.execMwrVram a v s
  | .mrdWram a => Sys2Proof.Machine.execMrdWram a s
  | .mwrWram a v => Sys2Proof.Machine.execMwrWram a v s
  | .mrdAram a => Sys2Proof.Machine.execMrdAram a s
  | .mwrAram a v => Sys2Proof.Machine.execMwrAram a v s
  | .mrdCrtc0 a => Sys2Proof.Machine.execMrdCrtc0 a s
  | .mwrCrtc0 a v => Sys2Proof.Machine.execMwrCrtc0 a v s
  | .mrdCrtc1 a => Sys2Proof.Machine.execMrdCrtc1 a s
  | .mwrCrtc1 a v => Sys2Proof.Machine.execMwrCrtc1 a v s
  | .mrdUnmapped a => Sys2Proof.Machine.execMrdUnmapped a s
  | .mwrUnmapped a v => Sys2Proof.Machine.execMwrUnmapped a v s
  | .cwrIntack => Sys2Proof.Machine.execCwrIntack s
  | .cwrMux1 => Sys2Proof.Machine.execCwrMux1 s
  | .cwrMux2 => Sys2Proof.Machine.execCwrMux2 s
  | .cwrMux3 => Sys2Proof.Machine.execCwrMux3 s
  | .cwrOther b value => Sys2Proof.Machine.execCwrOther b value s
  | .crdMux => Sys2Proof.Machine.execCrdMux s
  | .crdOther b => Sys2Proof.Machine.execCrdOther b s
  | .fsync => Sys2Proof.Machine.execFsync s
  | .refresh => Sys2Proof.Machine.execRefresh s
  | .poweron => Sys2Proof.Machine.execPoweron s

end Sys2Proof.Machine
end

