-- ==== Sys2Proof/Machine/Step.lean ====
section
/-!
DEFINITION. One step: take the next event, decode it, answer it (spec/00_scope.md R5, spec/20_memory.md R42).
-/

namespace Sys2Proof.Machine

/-- One atomic step of the block. -/
def step (s : State) : Host.Outcome State Fault Refusal :=
  match decode s.cfg s.nextStimulus.event with
  | .ok i => exec i s.take
  | .error why => .refused (.rejected why)

/-- The event of a table word; a word that is none is delivered as event value 3, which the step rejects too. -/
def tableEvent (cfg : Cfg) (nbits w : Nat) : Event :=
  match wordEvent cfg (tableWord nbits w) with
  | .ok e => e
  | .error _ => .trigger 3

/-- `s` with the operation of a table word waiting as the next event, the port snapshots as they are. Log 1, log 19. -/
def State.withFetchWord (s : State) (nbits w : Nat) : State :=
  { s with pending := ⟨tableEvent s.cfg nbits w, s.ports⟩ :: s.pending }

end Sys2Proof.Machine
end

