-- ==== Sys2Proof/Safety.lean ====
section
/-!
DEFINITION. What the statements speak of: the invariant of the block's state, sequences of operations, the byte a CPU
reads at an address, and the renderer written as spec/41_tile_renderer.md R102 and R109 write it.
-/

namespace Sys2Proof.Machine

/-! ## The invariant -/

/-- The three memories are in canonical form and list only cells they have (R13, R14, R15). -/
abbrev Canonical (s : State) : Prop :=
  (Memory.wf s.vram = true ∧ Memory.inside 1024 s.vram = true) ∧
    (Memory.wf s.aram = true ∧ Memory.inside 1024 s.aram = true) ∧
    (Memory.wf s.wram = true ∧ Memory.inside s.cfg.wramSize s.wram = true)

/-- The 64 pixels of slot `i` are the tile of its two cells (R26 (2), R108). -/
def ShowsSlot (s : State) (i : Nat) : Prop :=
  ∀ y x : BitVec 3, s.pixel (slotRow i * 8 + y.toNat) (slotCol i * 8 + x.toNat) = s.tilePixel i y x

/-- Every slot is dirty or shows its cells (R19, R26 (2)). -/
def Coherent (s : State) : Prop := ∀ i, i < 1024 → s.dirtyAt i = true ∨ ShowsSlot s i

/-- The invariant: a configuration of R8, canonical memories, a coherent picture. -/
def Inv (s : State) : Prop := s.cfg.Valid ∧ Canonical s ∧ Coherent s

/-- The event the next step takes is one the block can receive (R55, R59). -/
abbrev Safe (s : State) : Prop := Event.legal s.cfg s.nextStimulus.event = true

/-! ## Sequences of operations -/

/-- The operations one after another (spec/20_memory.md R42), stopping where one has no meaning. -/
def runInstrs : List Instr → State → Result
  | [], s => .next s
  | i :: is, s =>
    match exec i s with
    | .next t => runInstrs is t
    | .fault f => .fault f
    | .refused r => .refused r

/-- The value an operation leaves in `mux_sel`, where it writes one (R26 (5), R160). -/
def selectionOf : Instr → Option (BitVec 2)
  | .cwrMux1 => some 1
  | .cwrMux2 => some 2
  | .cwrMux3 => some 3
  | .poweron => some 0
  | _ => none

/-- The level an operation drives the interrupt line to, where it drives it (R145). -/
def lineOf : Instr → Option Line
  | .fsync => some .asserted
  | .cwrIntack => some .clear
  | .poweron => some .clear
  | _ => none

/-- What the last operation of the sequence with a value says, or `x` where none has one. -/
def lastOf {α : Type} (f : Instr → Option α) (is : List Instr) (x : α) : α :=
  is.foldl (fun y i => (f i).getD y) x

/-! ## Bytes of the memory space -/

/-- The masked address an operation stores a byte to, where it stores one. -/
def storeAddress : Instr → Option Nat
  | .mwrVram a _ => some a
  | .mwrWram a _ => some a
  | .mwrAram a _ => some a
  | _ => none

/-- The byte stored at a masked address: what a CPU read of it returns, where a memory or ROM answers (R41). -/
def State.busByte (s : State) (a : Nat) : Option Byte :=
  match region s.cfg a with
  | .rom => some (romByte s.cfg (cellIndex s.cfg.romLo a))
  | .vram => some (s.vramByte (cellIndex s.cfg.vramLo a))
  | .wram => some (s.wramByte (cellIndex s.cfg.wramLo a))
  | .aram => some (s.aramByte (cellIndex s.cfg.aramLo a))
  | .crtc0 => none
  | .crtc1 => none
  | .unmapped => none

/-! ## The renderer as R102 and R109 write it -/

/-- `fb[py][px] <- k`. -/
def State.setPixel (s : State) (py px : Nat) (k : Pixel) : State :=
  { s with fb := s.fb.setIfInBounds py (((s.fb[py]?).getD (Vector.replicate 256 0)).setIfInBounds px k) }

/-- `dirty[i] <- 0`. -/
def State.clearDirty (s : State) (i : Nat) : State := { s with dirty := s.dirty.setIfInBounds i false }

/-- The inner loops of R102 for slot `i`: `for y`, `for x`, `fb[row*8 + y][col*8 + x] <- GfxDecode(...)`. -/
def drawTile (s : State) (i : Nat) : State :=
  (List.range 8).foldl (fun t y =>
    (List.range 8).foldl (fun u x =>
      u.setPixel (slotRow i * 8 + y) (slotCol i * 8 + x) (s.tilePixel i (BitVec.ofNat 3 y) (BitVec.ofNat 3 x))) t) s

/-- One turn of the outer loop of R102. -/
def drawSlot (s : State) (i : Nat) : State :=
  if s.dirtyAt i then (drawTile s i).clearDirty i else s

/-- The loop of R102: the 1024 slots in ascending order. -/
def refreshLoop (s : State) : State := (List.range 1024).foldl drawSlot s

/-- The picture of a renderer that draws every slot (R109). -/
@[irreducible] def State.fullPicture (s : State) : Picture :=
  Vector.ofFn fun py => Vector.ofFn fun px =>
    s.tilePixel (slotOfPixel py.val px.val) (tileLine py.val) (tileLine px.val)

/-- The renderer without a dirty set: every slot is drawn, every flag ends clear (R109). -/
def redrawAll (s : State) : State := { s with fb := s.fullPicture, dirty := Vector.replicate 1024 false }

end Sys2Proof.Machine
end

