-- ==== Sys2Proof/Certificates/Slice0/Obligations.lean ====
section
/-!
DEFINITION. The statements for the provers. A frame is written by putting the fields an operation may change back:
what is then the old state is unchanged in every other field. A byte of memory is read through `vramByte`, `aramByte`,
`wramByte` and, by address, through `busByte`.
-/

open Sys2Proof Sys2Proof.Machine

/-! ## Decoding and encoding -/

/-- The decoder reads back every well-formed operation from the word the encoder gives it, under every configuration
of R8, with every operand at every value (spec/30_encoding.md sections 2 to 4). -/
def Obligations.DecodeOfEncodeIsTheOperation : Prop :=
  ∀ cfg : Cfg, cfg.Valid → ∀ i : Instr, WellFormed cfg i = true → decodeWord cfg (encode cfg i) = .ok i

/-- The other direction: a word that decodes is the word the encoder gives its operation, and the operation is
well-formed, so no two words of a format select one operation (spec/30_encoding.md section 2). -/
def Obligations.EncodeOfDecodeIsTheWord : Prop :=
  ∀ (cfg : Cfg) (t : TxWord) (i : Instr), cfg.Valid → decodeWord cfg t = .ok i →
    WellFormed cfg i = true ∧ (encode cfg i).format = t.format ∧ (encode cfg i).word = t.word

/-- Words written out from the spec's encodings (R56, and 95_test_vectors.md V2) decode to what they stand for. -/
def Obligations.SpecWordsDecode : Prop :=
  decodeWord cfgRef ⟨.CW, 0b01100111000101, 0⟩ = .ok .cwrIntack ∧
    decodeWord cfgRef ⟨.CW, 0b01100110000101, 0⟩ = .ok .cwrMux1 ∧
    decodeWord cfgRef ⟨.CW, 0b01100110001001, 0⟩ = .ok .cwrMux2 ∧
    decodeWord cfgRef ⟨.CW, 0b01100110001101, 0⟩ = .ok .cwrMux3 ∧
    decodeWord cfgRef ⟨.CW, 0x19C4, 0⟩ = .ok (.cwrOther 0x0CE2 0) ∧
    decodeWord cfgRef ⟨.CR, 0x0C80, 0⟩ = .ok .crdMux ∧
    decodeWord cfgRef ⟨.M, 0x7005, 0x99⟩ = .ok (.mwrVram 0x3005 0x99) ∧
    decodeWord cfgRef ⟨.M, 0x3805, 0⟩ = .ok (.mrdAram 0x3805) ∧
    decodeWord cfgRef ⟨.EV, 1, 0⟩ = .ok .refresh

/-- The rows of the opcode table, tried in the listed order, name the operation the decoder reads (R62, an inference of
the spec's own serialisation, D16). -/
def Obligations.OpcodeTableNamesTheDecodedOperation : Prop :=
  ∀ (f : Format) (w : Nat) (v : Byte) (i : Instr), decodeWord cfgRef ⟨f, w, v⟩ = .ok i →
    tableSelect f w = some i.mnemonic

/-- "Decode is total: every word of every format selects a row" (R53): a legal event selects a well-formed operation. -/
def Obligations.EveryTransactionSelectsARow : Prop :=
  ∀ (cfg : Cfg) (e : Event), Event.legal cfg e = true → ∃ i, decode cfg e = .ok i ∧ WellFormed cfg i = true

/-- The six ranges and the rest, whatever the order of the tests (R32, under R8). -/
def Obligations.RegionIsTheRangeThatHoldsTheAddress : Prop :=
  ∀ cfg : Cfg, cfg.Valid → ∀ a : Nat,
    (region cfg a = .rom ↔ cfg.romLo ≤ a ∧ a ≤ cfg.romHi) ∧
      (region cfg a = .vram ↔ cfg.vramLo ≤ a ∧ a ≤ cfg.vramLo + 1023) ∧
      (region cfg a = .wram ↔ cfg.wramLo ≤ a ∧ a ≤ cfg.wramLo + cfg.wramSize - 1) ∧
      (region cfg a = .aram ↔ cfg.aramLo ≤ a ∧ a ≤ cfg.aramLo + 1023) ∧
      (region cfg a = .crtc0 ↔ cfg.crtc0Lo ≤ a ∧ a ≤ cfg.crtc0Hi) ∧
      (region cfg a = .crtc1 ↔ cfg.crtc1Lo ≤ a ∧ a ≤ cfg.crtc1Hi) ∧
      (region cfg a = .unmapped ↔ ∀ r ∈ cfg.ranges, ¬(r.1 ≤ a ∧ a ≤ r.2))

/-- Raw addresses that agree in their low `AW` bits are one location (20_memory.md section 2; the mask's shape is the
spec's decision D3, log 27). -/
def Obligations.AddressWindowRepeats : Prop :=
  ∀ (cfg : Cfg) (raw raw' : Nat), raw < 2 ^ cfg.rawAw → raw' < 2 ^ cfg.rawAw →
    raw % 2 ^ cfg.aw = raw' % 2 ^ cfg.aw →
    decode cfg (.memRead raw) = decode cfg (.memRead raw') ∧
      ∀ v, decode cfg (.memWrite raw v) = decode cfg (.memWrite raw' v)

/-- An even CRU write selects its row by exact match of all address bits and the bit written (42_cru_io.md section 1). -/
def Obligations.CruWriteSelectsByExactMatch : Prop :=
  ∀ (cfg : Cfg) (b : CruAddr) (value : BitVec 1), oddAddr b = false →
    (decode cfg (.cruWrite b value) = .ok .cwrIntack ↔ b = 0x0CE2 ∧ value = 1) ∧
      (decode cfg (.cruWrite b value) = .ok .cwrMux1 ↔ b = 0x0CC2 ∧ value = 1) ∧
      (decode cfg (.cruWrite b value) = .ok .cwrMux2 ↔ b = 0x0CC4 ∧ value = 1) ∧
      (decode cfg (.cruWrite b value) = .ok .cwrMux3 ↔ b = 0x0CC6 ∧ value = 1) ∧
      (decode cfg (.cruWrite b value) = .ok (.cwrOther b value) ↔
        ¬(value = 1 ∧ (b = 0x0CE2 ∨ b = 0x0CC2 ∨ b = 0x0CC4 ∨ b = 0x0CC6)))

/-! ## The step -/

/-- When the next event decodes to `i`, the step is `exec i` in the state where the event has been taken
(00_scope.md section 3: one operation is one atomic step). How an event is taken is the model's own choice, not the
spec's: it leaves the waiting list, or, where none waited, the free event is counted (log 1, DESIGN CHOICE), and its port
snapshots are presented (log 3, DESIGN CHOICE). -/
def Obligations.StepRunsTheDecodedOperation : Prop :=
  ∀ (s : State) (i : Instr), decode s.cfg s.nextStimulus.event = .ok i →
    step s = exec i s.take ∧ s.take.ports = s.nextStimulus.ports ∧
      (∀ x rest, s.pending = x :: rest →
        s.nextStimulus = x ∧ s.take = { s with pending := rest, ports := x.ports }) ∧
      (s.pending = [] → s.take = { s with ticks := s.ticks + 1, ports := s.nextStimulus.ports })

/-- An odd CRU address is refused by name (the spec's decision D6, log 13). -/
def Obligations.OddCruAddressIsRefused : Prop :=
  ∀ (s : State) (b : CruAddr) (value : BitVec 1) (p : Ports) (rest : List Stimulus), oddAddr b = true →
    step { s with pending := ⟨.cruWrite b value, p⟩ :: rest } = .refused (.rejected .oddCruAddress) ∧
      step { s with pending := ⟨.cruRead b, p⟩ :: rest } = .refused (.rejected .oddCruAddress)

/-- Every step on a legal event yields a next state, and no step faults (60_exceptions.md section 1). The clause for a
state in which no event waits is the model's own: it holds because the model cuts the free event down to a legal one
(log 1, DESIGN CHOICE). -/
def Obligations.EveryTransactionIsAccepted : Prop :=
  ∀ s : State, Safe s ∨ s.pending = [] → ∃ t, step s = .next t

/-- An operation completes exactly where its operands are its row's. -/
def Obligations.OperationCompletesExactlyWhenWellFormed : Prop :=
  ∀ (i : Instr) (s : State), WellFormed s.cfg i = true ↔ ∃ t, exec i s = .next t

/-- The invariant holds after reset. Its dirty flags are the spec's decision D10 (log 8), its map `CFG_REF` (log 2). -/
def Obligations.InvariantHoldsAfterReset : Prop := Inv State.reset

/-- Every step keeps the invariant: canonical memories, and every slot dirty or showing its cells. -/
def Obligations.EveryStepKeepsTheInvariant : Prop :=
  ∀ s t : State, Inv s → step s = .next t → Inv t

/-- No step changes the configuration: the mask, the map, ROM and the graphics decode are fixed (20_memory.md
section 4, 10_state.md section 3). -/
def Obligations.NoStepChangesTheConfiguration : Prop :=
  ∀ s t : State, step s = .next t → t.cfg = s.cfg ∧ ∀ k, romByte t.cfg k = romByte s.cfg k

/-! ## The memory bus -/

/-- R70: the read returns `ROM[a - ROM_LO]` and changes no state. -/
def Obligations.RomReadReturnsTheRomByte : Prop :=
  ∀ (s : State) (a : Nat), selects s.cfg .rom a = true →
    exec (.mrdRom a) s = .next { s with outputs := s.outputs ++ [.readResult (romByte s.cfg (a - s.cfg.romLo))] }

/-- R71, R125: a write of the ROM range and a CRU write of the otherwise-row change nothing at all. -/
def Obligations.IgnoredWritesChangeNothing : Prop :=
  (∀ (s : State) (a : Nat) (v : Byte), selects s.cfg .rom a = true → exec (.mwrRom a v) s = .next s) ∧
    ∀ (s : State) (b : CruAddr) (value : BitVec 1), oddAddr b = false →
      ¬(value = 1 ∧ (b = 0x0CE2 ∨ b = 0x0CC2 ∨ b = 0x0CC4 ∨ b = 0x0CC6)) →
      exec (.cwrOther b value) s = .next s

/-- R72: the read returns the stored byte and changes no state. -/
def Obligations.VideoReadReturnsTheStoredByte : Prop :=
  ∀ (s : State) (a : Nat), selects s.cfg .vram a = true →
    exec (.mrdVram a) s =
      .next { s with outputs := s.outputs ++ [.readResult (s.vramByte (a - s.cfg.vramLo))] }

/-- R73: the write stores the byte and marks the slot dirty, whatever was stored before; every other cell, flag and
field, and every byte at another address, is unchanged. -/
def Obligations.VideoWriteStoresAndInvalidates : Prop :=
  ∀ (s : State) (a : Nat) (v : Byte), selects s.cfg .vram a = true →
    ∃ t, exec (.mwrVram a v) s = .next t ∧ t.vramByte (a - s.cfg.vramLo) = v ∧
      t.dirtyAt (a - s.cfg.vramLo) = true ∧
      (∀ j, j ≠ a - s.cfg.vramLo → t.vramByte j = s.vramByte j ∧ t.dirtyAt j = s.dirtyAt j) ∧
      { t with vram := s.vram, dirty := s.dirty } = s ∧
      t.busByte a = some v ∧ ∀ a', a' ≠ a → t.busByte a' = s.busByte a'

/-- R74: the read returns the stored byte and changes no state; after POWERON it is the byte held before. -/
def Obligations.WorkingReadReturnsTheStoredByte : Prop :=
  ∀ (s : State) (a : Nat), selects s.cfg .wram a = true →
    exec (.mrdWram a) s =
        .next { s with outputs := s.outputs ++ [.readResult (s.wramByte (a - s.cfg.wramLo))] } ∧
      ∃ t, exec .poweron s = .next t ∧ exec (.mrdWram a) t =
        .next { t with outputs := t.outputs ++ [.readResult (s.wramByte (a - s.cfg.wramLo))] }

/-- R75: the write stores the byte; every other cell and field, the dirty flags among them, is unchanged. -/
def Obligations.WorkingWriteStoresOnly : Prop :=
  ∀ (s : State) (a : Nat) (v : Byte), selects s.cfg .wram a = true →
    ∃ t, exec (.mwrWram a v) s = .next t ∧ t.wramByte (a - s.cfg.wramLo) = v ∧
      (∀ j, j ≠ a - s.cfg.wramLo → t.wramByte j = s.wramByte j) ∧
      { t with wram := s.wram } = s ∧
      t.busByte a = some v ∧ ∀ a', a' ≠ a → t.busByte a' = s.busByte a'

/-- The read returns the whole stored byte and changes no state (40_address_decoder.md section 5; that bits 7:2 are
stored is the spec's decision D17, log 15). -/
def Obligations.AttributeReadReturnsTheStoredByte : Prop :=
  ∀ (s : State) (a : Nat), selects s.cfg .aram a = true →
    exec (.mrdAram a) s =
      .next { s with outputs := s.outputs ++ [.readResult (s.aramByte (a - s.cfg.aramLo))] }

/-- The write stores the byte (40_address_decoder.md section 5; bits 7:2 too: the spec's decision D17, log 15) and marks
the same slot dirty; all else is unchanged, `vram` among it; the next
REFRESH draws the slot from the new bank, whether its video cell changed or not. -/
def Obligations.AttributeWriteStoresAndInvalidates : Prop :=
  ∀ (s : State) (a : Nat) (v : Byte), selects s.cfg .aram a = true →
    ∃ t, exec (.mwrAram a v) s = .next t ∧ t.aramByte (a - s.cfg.aramLo) = v ∧
      t.dirtyAt (a - s.cfg.aramLo) = true ∧
      (∀ j, j ≠ a - s.cfg.aramLo → t.aramByte j = s.aramByte j ∧ t.dirtyAt j = s.dirtyAt j) ∧
      { t with aram := s.aram, dirty := s.dirty } = s ∧
      t.busByte a = some v ∧ (∀ a', a' ≠ a → t.busByte a' = s.busByte a') ∧
      ∃ u, exec .refresh t = .next u ∧ ∀ y x : BitVec 3,
        u.pixel (slotRow (a - s.cfg.aramLo) * 8 + y.toNat) (slotCol (a - s.cfg.aramLo) * 8 + x.toNat) =
          gfxDecode s.cfg (v.extractLsb' 0 2) (s.vramByte (a - s.cfg.aramLo)) y x

/-- The reads return what the collaborator returns and leave it as it says; nothing else changes, and every address of the
sub-range behaves alike (40_address_decoder.md section 6; the pairing is the spec's decision D19, log 9). -/
def Obligations.ControllerReadsAreForwarded : Prop :=
  (∀ (s : State) (a : Nat), selects s.cfg .crtc0 a = true →
    exec (.mrdCrtc0 a) s = .next { s with
      crtc := (Config.crtcStatusRead s.crtc).2
      outputs := s.outputs ++ [.readResult (Config.crtcStatusRead s.crtc).1] }) ∧
    ∀ (s : State) (a : Nat), selects s.cfg .crtc1 a = true →
      exec (.mrdCrtc1 a) s = .next { s with
        crtc := (Config.crtcRegisterRead s.crtc).2
        outputs := s.outputs ++ [.readResult (Config.crtcRegisterRead s.crtc).1] }

/-- The writes hand the byte to the collaborator; nothing else changes (40_address_decoder.md section 6; the pairing is
the spec's decision D19, log 9). -/
def Obligations.ControllerWritesAreForwarded : Prop :=
  (∀ (s : State) (a : Nat) (v : Byte), selects s.cfg .crtc0 a = true →
    exec (.mwrCrtc0 a v) s = .next { s with crtc := Config.crtcAddressWrite v s.crtc }) ∧
    ∀ (s : State) (a : Nat) (v : Byte), selects s.cfg .crtc1 a = true →
      exec (.mwrCrtc1 a v) s = .next { s with crtc := Config.crtcRegisterWrite v s.crtc }

/-- Unmapped addresses and unknown CRU lines read as the next free byte, whatever it is, a new one at every read, and
change no state of the block; an unmapped write changes nothing (the spec's decisions D5 and D8, logs 4 and 26). -/
def Obligations.UnknownReadsAreFreshDraws : Prop :=
  (∀ (s : State) (a : Nat), selects s.cfg .unmapped a = true →
    (∀ v, exec (.mwrUnmapped a v) s = .next s) ∧
      exec (.mrdUnmapped a) s = .next { s with
        draws := s.draws + 1
        outputs := s.outputs ++ [.readResult (Config.drawByte s.draws)] }) ∧
    ∀ (s : State) (b : CruAddr), oddAddr b = false → b ≠ s.cfg.muxReadAddr →
      exec (.crdOther b) s = .next { s with
        draws := s.draws + 1
        outputs := s.outputs ++ [.readResult (Config.drawByte s.draws)] }

/-- A memory operation changes no byte at an address it does not store to, and nothing changes a byte of ROM; only
POWERON changes the volatile memories otherwise (10_state.md section 8, 40_address_decoder.md section 8, the spec's
own inferences). -/
def Obligations.BytesChangeOnlyWhereStored : Prop :=
  ∀ (i : Instr) (s t : State), exec i s = .next t →
    ∀ a, region s.cfg a = .rom ∨ region s.cfg a = .wram ∨ i ≠ .poweron → storeAddress i ≠ some a →
      t.busByte a = s.busByte a

/-- Read-after-write over any sequence of operations that stores nothing to the same masked address, with no POWERON in
it where the cell is video or attribute memory (40_address_decoder.md section 8, the spec's own inference). -/
def Obligations.ReadAfterWriteReturnsTheByte : Prop :=
  ∀ (s t u : State) (a : Nat) (v : Byte) (is : List Instr),
    (∀ i ∈ is, storeAddress i ≠ some a) → runInstrs is t = .next u →
    (exec (.mwrVram a v) s = .next t → .poweron ∉ is →
      exec (.mrdVram a) u = .next { u with outputs := u.outputs ++ [.readResult v] }) ∧
    (exec (.mwrAram a v) s = .next t → .poweron ∉ is →
      exec (.mrdAram a) u = .next { u with outputs := u.outputs ++ [.readResult v] }) ∧
    (exec (.mwrWram a v) s = .next t →
      exec (.mrdWram a) u = .next { u with outputs := u.outputs ++ [.readResult v] })

/-! ## The CRU bus -/

/-- R121: the acknowledge clears the line and drives the output clear; nothing else changes, the selection among it;
done twice it leaves the state of the block as done once; value 0 at its address clears nothing; no other operation
clears the line (a power cycle apart, which is no transaction). -/
def Obligations.AcknowledgeClearsTheLine : Prop :=
  (∀ s : State, ∃ t, exec .cwrIntack s = .next t ∧ t.intLine = .clear ∧
    t.outputs = s.outputs ++ [.setInterruptLine 1 .clear] ∧
    { t with intLine := s.intLine, outputs := s.outputs } = s ∧
    (s.intLine = .clear → { t with outputs := s.outputs } = s) ∧
    exec (.cwrOther 0x0CE2 0) s = .next s) ∧
  ∀ (i : Instr) (s t : State), exec i s = .next t → i ≠ .poweron → s.intLine = .asserted →
    t.intLine = .clear → i = .cwrIntack

/-- R122, R123, R124: each strobe overwrites the selection and changes nothing else; the later strobe wins; value 0 at
a strobe's address changes nothing. -/
def Obligations.StrobesSelectThePort : Prop :=
  ∀ s : State, exec .cwrMux1 s = .next { s with muxSel := 1 } ∧ exec .cwrMux2 s = .next { s with muxSel := 2 } ∧
    exec .cwrMux3 s = .next { s with muxSel := 3 } ∧
    runInstrs [.cwrMux1, .cwrMux2] s = .next { s with muxSel := 2 } ∧
    (s.muxSel = 1 → exec .cwrMux1 s = .next s) ∧ (s.muxSel = 2 → exec .cwrMux2 s = .next s) ∧
    (s.muxSel = 3 → exec .cwrMux3 s = .next s) ∧
    exec (.cwrOther 0x0CC2 0) s = .next s ∧ exec (.cwrOther 0x0CC4 0) s = .next s ∧
    exec (.cwrOther 0x0CC6 0) s = .next s

/-- R127, R129: the multiplexed read returns the selected port's snapshot unchanged, all bits set where no port is
selected, and changes no state. -/
def Obligations.MultiplexedReadReturnsTheSelectedPort : Prop :=
  ∀ s : State, ∃ v, exec .crdMux s = .next { s with outputs := s.outputs ++ [.readResult v] } ∧
    (s.muxSel = 0 → v = 0xFF) ∧ (s.muxSel = 1 → v = s.ports.a) ∧ (s.muxSel = 2 → v = s.ports.b) ∧
    (s.muxSel = 3 → v = s.ports.c)

/-- `mux_sel` after a sequence is what the last strobe or POWERON in it says, and is unchanged where there is none
(42_cru_io.md section 3, the spec's own inference). -/
def Obligations.SelectionIsTheLastStrobe : Prop :=
  ∀ (is : List Instr) (s t : State), runInstrs is s = .next t → t.muxSel = lastOf selectionOf is s.muxSel

/-! ## The interrupt controller -/

/-- R144: FSYNC asserts the line unconditionally and changes nothing else; a second one leaves the state of the block as
it is, and one acknowledge then clears the line. -/
def Obligations.FrameSyncAssertsTheLine : Prop :=
  ∀ s : State, ∃ t u w, exec .fsync s = .next t ∧ t.intLine = .asserted ∧
    t.outputs = s.outputs ++ [.setInterruptLine 1 .asserted] ∧
    { t with intLine := s.intLine, outputs := s.outputs } = s ∧
    exec .fsync t = .next u ∧ { u with outputs := t.outputs } = t ∧
    exec .cwrIntack u = .next w ∧ w.intLine = .clear

/-- The controller's state machine (60_exceptions.md section 2; its POWERON row is the spec's decision D10, log 7):
FSYNC leads to asserted, CWR.INTACK and POWERON to clear, every other operation leaves the line; the three
drive the output to the new level, no other operation calls it. -/
def Obligations.InterruptStateMachine : Prop :=
  ∀ (i : Instr) (s t : State), exec i s = .next t →
    t.intLine = (lineOf i).getD s.intLine ∧
      (∀ l, lineOf i = some l → t.outputs = s.outputs ++ [.setInterruptLine 1 l]) ∧
      (lineOf i = none → ∀ k l, Output.setInterruptLine k l ∈ t.outputs → Output.setInterruptLine k l ∈ s.outputs)

/-- The line after a sequence is what the last FSYNC, CWR.INTACK or POWERON in it says: frames merge, one acknowledge
clears them (60_exceptions.md section 3, the spec's own inference; that POWERON clears the line is its decision D10, log 7). -/
def Obligations.LineIsTheLastControllerEvent : Prop :=
  ∀ (is : List Instr) (s t : State), runInstrs is s = .next t → t.intLine = lastOf lineOf is s.intLine

/-- The source's end-to-end scenario (95_test_vectors.md S6), from every state. -/
def Obligations.EndToEndScenario : Prop :=
  ∀ s : State, ∃ t, runInstrs [.fsync, .cwrMux1, .cwrIntack, .crdMux] s = .next t ∧
    t.intLine = .clear ∧ t.muxSel = 1 ∧
    t.outputs = s.outputs ++
      [.setInterruptLine 1 .asserted, .setInterruptLine 1 .clear, .readResult s.ports.a]

/-! ## The renderer -/

/-- R101: slots are numbered row-major, each owns its own 8 x 8 pixels of the 256 x 256 from its origin on, and shows
its own video and attribute cell and no other. -/
def Obligations.SlotsOwnDisjointPixels : Prop :=
  (∀ i, i < 1024 → slotRow i = i >>> 5 ∧ slotCol i = i &&& 31 ∧ i = slotRow i * 32 + slotCol i ∧
    slotRow i < 32 ∧ slotCol i < 32) ∧
    (∀ (s t : State) (i : Nat), s.cfg = t.cfg → s.vramByte i = t.vramByte i → s.aramByte i = t.aramByte i →
      ∀ y x, s.tilePixel i y x = t.tilePixel i y x) ∧
    ∀ py px, py < 256 → px < 256 → ∀ i, i < 1024 →
      ((∃ y x : BitVec 3, py = slotRow i * 8 + y.toNat ∧ px = slotCol i * 8 + x.toNat) ↔ slotOfPixel py px = i)

/-- R102, R106: REFRESH stores, for each dirty slot, the tile of `(aram[i][1:0], vram[i])` at the slot's origin, leaves
the pixels of the others (the slots' pixels are all there are), clears every flag, and changes nothing else. -/
def Obligations.RefreshDrawsTheDirtySlots : Prop :=
  ∀ s : State, ∃ t, exec .refresh s = .next t ∧
    (∀ i, i < 1024 → ∀ y x : BitVec 3, slotRow i * 8 + y.toNat ≤ 255 ∧ slotCol i * 8 + x.toNat ≤ 255 ∧
      t.pixel (slotRow i * 8 + y.toNat) (slotCol i * 8 + x.toNat) =
        if s.dirtyAt i then gfxDecode s.cfg ((s.aramByte i).extractLsb' 0 2) (s.vramByte i) y x
        else s.pixel (slotRow i * 8 + y.toNat) (slotCol i * 8 + x.toNat)) ∧
    (∀ i, t.dirtyAt i = false) ∧ { t with fb := s.fb, dirty := s.dirty } = s

/-- The model's REFRESH is the loop of R102: the 1024 slots in ascending order, 64 pixels each, one flag cleared at a
time. -/
def Obligations.RefreshIsTheSlotLoop : Prop :=
  ∀ s : State, exec .refresh s = .next (refreshLoop s)

/-- R108: after REFRESH every slot shows its cells and no flag is set; between two REFRESH events no operation but
POWERON changes the frame buffer; only slots whose flag is set may be stale, before an
operation and after it. -/
def Obligations.PictureReflectsMemoryAfterRefresh : Prop :=
  (∀ s : State, Coherent s → ∃ t, exec .refresh s = .next t ∧ ∀ i, i < 1024 → ShowsSlot t i ∧ t.dirtyAt i = false) ∧
    (∀ (i : Instr) (s t : State), exec i s = .next t → i ≠ .refresh → i ≠ .poweron → t.fb = s.fb) ∧
    ∀ (i : Instr) (s t : State), exec i s = .next t → Coherent s → Coherent t

/-- Dirty tracking is optional (41_tile_renderer.md section 5): where every slot is dirty or shows its cells, the
renderer that draws every slot gives the same state. -/
def Obligations.DirtyTrackingIsOptional : Prop :=
  ∀ s : State, Coherent s → exec .refresh s = .next (redrawAll s)

/-- R110, R103: the refreshed picture depends on the video cells, bits 1:0 of the attribute cells, the flags, the old
pixels and the graphics decode, and on nothing else of the state. -/
def Obligations.PictureDependsOnTheTilesOnly : Prop :=
  ∀ s t : State, s.cfg.gfx = t.cfg.gfx →
    (∀ i, i < 1024 → s.vramByte i = t.vramByte i ∧ s.dirtyAt i = t.dirtyAt i ∧
      ∀ k, k < 2 → (s.aramByte i).getLsbD k = (t.aramByte i).getLsbD k) →
    (∀ py px, s.pixel py px = t.pixel py px) →
    ∃ s' t', exec .refresh s = .next s' ∧ exec .refresh t = .next t' ∧ ∀ py px, s'.pixel py px = t'.pixel py px

/-- R100: a video or attribute write sets its slot's flag and does not touch the frame buffer; no other operation sets
a flag, and REFRESH clears all. (The flags after POWERON are in `PowerOnResetsAllButWorkingMemory`.) -/
def Obligations.DirtyFlagsHaveNoOtherWriter : Prop :=
  ∀ (i : Instr) (s t : State), exec i s = .next t → i ≠ .poweron → ∀ j, j < 1024 →
    (t.dirtyAt j = match i with
      | .mwrVram a _ => s.dirtyAt j || decide (j = a - s.cfg.vramLo)
      | .mwrAram a _ => s.dirtyAt j || decide (j = a - s.cfg.aramLo)
      | .refresh => false
      | _ => s.dirtyAt j) ∧
      (storeAddress i ≠ none → t.fb = s.fb)

/-- The collaborator's state changes only as its four operations say and at POWERON (10_state.md section 6; the pairing
with the sub-ranges and `Crtc.init` at POWERON are the spec's decisions D19 and D10, log 9). -/
def Obligations.ControllerChangesOnlyByForwarding : Prop :=
  ∀ (i : Instr) (s t : State), exec i s = .next t →
    t.crtc = match i with
      | .mrdCrtc0 _ => (Config.crtcStatusRead s.crtc).2
      | .mwrCrtc0 _ v => Config.crtcAddressWrite v s.crtc
      | .mrdCrtc1 _ => (Config.crtcRegisterRead s.crtc).2
      | .mwrCrtc1 _ v => Config.crtcRegisterWrite v s.crtc
      | .poweron => Config.crtcInit
      | _ => s.crtc

/-- The reference layout (41_tile_renderer.md section 4, the spec's decision D11, log 10): bit `p` of the index is the
plane-`p` bit, bit 7 of the row byte leftmost. -/
def Obligations.LayoutTakesOneBitFromEachPlane : Prop :=
  ∀ (cfg : Cfg) (ps bs : Nat) (image : Memory) (bank : BitVec 2) (code : Byte) (y x : BitVec 3) (p : Nat),
    cfg.gfx = .layout ps bs image → p < 3 →
    (gfxDecode cfg bank code y x).getLsbD p =
      (gfxByte image (p * ps + bank.toNat * bs + code.toNat * 8 + y.toNat)).getLsbD (7 - x.toNat)

/-- Nothing is lost by the reference layout: some graphics-ROM image gives any decode function at all (log 10). -/
def Obligations.EveryDecodeHasAnImage : Prop :=
  ∀ (cfg : Cfg) (f : BitVec 2 → Byte → BitVec 3 → BitVec 3 → Pixel), ∃ image : Memory,
    ∀ bank code y x, gfxDecode { cfg with gfx := .layout 0x2000 0x0800 image } bank code y x = f bank code y x

/-! ## Power -/

/-- POWERON (70_reset_and_hazards.md section 1, the spec's decisions D10 and D20, logs 5, 7, 8, 9): the selection is 0,
the line clear and driven clear, every slot dirty, the collaborator at its initial state, every cell of video and
attribute memory and every pixel a free value of the new epoch; working memory and all else are kept. -/
def Obligations.PowerOnResetsAllButWorkingMemory : Prop :=
  ∀ s : State, ∃ t, exec .poweron s = .next t ∧ t.muxSel = 0 ∧ t.intLine = .clear ∧
    t.outputs = s.outputs ++ [.setInterruptLine 1 .clear] ∧ t.epoch = s.epoch + 1 ∧ t.crtc = Config.crtcInit ∧
    (∀ i, t.vramByte i = Config.powerOnVram t.epoch i ∧ t.aramByte i = Config.powerOnAram t.epoch i ∧
      t.wramByte i = s.wramByte i) ∧
    (∀ i, i < 1024 → t.dirtyAt i = true) ∧
    (∀ py px, py < 256 → px < 256 → t.pixel py px = Config.powerOnPixel t.epoch py px) ∧
    { t with
      muxSel := s.muxSel, intLine := s.intLine, outputs := s.outputs, epoch := s.epoch, crtc := s.crtc,
      vram := s.vram, aram := s.aram, dirty := s.dirty, fb := s.fb } = s

/-- What reset leaves: `mux_sel` 0 in the source's words; the line, the flags, the free cells and pixels and the
collaborator by the spec's decision D10 (logs 5 to 9). -/
def Obligations.ResetState : Prop :=
  State.reset.muxSel = 0 ∧ State.reset.intLine = .clear ∧ State.reset.crtc = Config.crtcInit ∧
    (∀ i, i < 1024 → State.reset.dirtyAt i = true) ∧
    (∀ i, State.reset.vramByte i = Config.powerOnVram 0 i ∧ State.reset.aramByte i = Config.powerOnAram 0 i ∧
      State.reset.wramByte i = Config.wramImage i) ∧
    ∀ py px, py < 256 → px < 256 → State.reset.pixel py px = Config.powerOnPixel 0 py px

/-- The selection changes only at a strobe or POWERON (10_state.md section 8, the spec's own inference). -/
def Obligations.SelectionHasNoOtherWriter : Prop :=
  ∀ (i : Instr) (s t : State), exec i s = .next t → t.muxSel = (selectionOf i).getD s.muxSel
end

