-- ==== Sys2Proof/Laws/Decode.lean ====
section
/-!
SUPPORT. What decoding can give: where a masked address lies, which rows an event can select.
-/

namespace Sys2Proof

theorem selects_iff {cfg : Cfg} {r : Region} {a : Nat} :
    selects cfg r a = true ↔ a ≤ cfg.addrMask ∧ region cfg a = r := by
  simp [selects]

/-- Masking keeps the low `AW` bits. -/
theorem maskAddr_eq_mod (cfg : Cfg) (raw : Nat) : maskAddr cfg raw = raw % 2 ^ cfg.aw := by
  simp [maskAddr, Cfg.addrMask, Nat.and_two_pow_sub_one_eq_mod]

theorem maskAddr_le (cfg : Cfg) (raw : Nat) : maskAddr cfg raw ≤ cfg.addrMask := Nat.and_le_right

/-- An address in the ROM class lies in the ROM range. -/
theorem region_rom {cfg : Cfg} {a : Nat} (h : region cfg a = .rom) : cfg.romLo ≤ a ∧ a ≤ cfg.romHi := by
  unfold region at h
  split_ifs at h
  assumption

/-- An address in the VRAM class lies in the VRAM range. -/
theorem region_vram {cfg : Cfg} {a : Nat} (h : region cfg a = .vram) : cfg.vramLo ≤ a ∧ a ≤ cfg.vramLo + 1023 := by
  unfold region at h
  split_ifs at h
  assumption

/-- An address in the WRAM class lies in the WRAM range. -/
theorem region_wram {cfg : Cfg} {a : Nat} (h : region cfg a = .wram) :
    cfg.wramLo ≤ a ∧ a ≤ cfg.wramLo + cfg.wramSize - 1 := by
  unfold region at h
  split_ifs at h
  assumption

/-- An address in the ARAM class lies in the ARAM range. -/
theorem region_aram {cfg : Cfg} {a : Nat} (h : region cfg a = .aram) : cfg.aramLo ≤ a ∧ a ≤ cfg.aramLo + 1023 := by
  unfold region at h
  split_ifs at h
  assumption

/-- A masked address selects the row of its region. -/
theorem selects_region {cfg : Cfg} {a : Nat} (h : a ≤ cfg.addrMask) : selects cfg (region cfg a) a = true :=
  selects_iff.2 ⟨h, rfl⟩

/-- `MemRead`'s dispatch gives a well-formed operation. -/
theorem decodeMemRead_wellFormed {cfg : Cfg} {a : Nat} (h : a ≤ cfg.addrMask) :
    WellFormed cfg (decodeMemRead cfg a) = true := by
  unfold decodeMemRead
  split <;> rename_i hr <;> exact selects_iff.2 ⟨h, hr⟩

/-- `MemWrite`'s dispatch gives a well-formed operation. -/
theorem decodeMemWrite_wellFormed {cfg : Cfg} {a : Nat} (v : Byte) (h : a ≤ cfg.addrMask) :
    WellFormed cfg (decodeMemWrite cfg a v) = true := by
  unfold decodeMemWrite
  split <;> rename_i hr <;> exact selects_iff.2 ⟨h, hr⟩

theorem namedCruWrite_iff {b : CruAddr} {value : BitVec 1} :
    namedCruWrite b value = true ↔ value = 1 ∧ (b = intackAddr ∨ b = mux1Addr ∨ b = mux2Addr ∨ b = mux3Addr) := by
  simp [namedCruWrite]

/-- `CruWrite` gives a well-formed operation of an even address. -/
theorem decodeCruWrite_wellFormed {cfg : Cfg} {b : CruAddr} {value : BitVec 1} (h : oddAddr b = false) :
    WellFormed cfg (decodeCruWrite b value) = true := by
  unfold decodeCruWrite
  split_ifs with h1 h2 h3 h4 <;> try rfl
  have hn : ¬namedCruWrite b value = true := by
    rw [namedCruWrite_iff]
    rintro ⟨hv, hb | hb | hb | hb⟩
    · exact h1 ⟨hb, hv⟩
    · exact h2 ⟨hb, hv⟩
    · exact h3 ⟨hb, hv⟩
    · exact h4 ⟨hb, hv⟩
  simp [WellFormed, otherCruWrite, h, hn]

/-- `CruRead` gives a well-formed operation of an even address. -/
theorem decodeCruRead_wellFormed {cfg : Cfg} {b : CruAddr} (h : oddAddr b = false) :
    WellFormed cfg (decodeCruRead cfg b) = true := by
  unfold decodeCruRead
  split_ifs with h1
  · rfl
  · simp [WellFormed, otherCruRead, h, h1]

end Sys2Proof
end

