-- ==== Sys2Proof/Laws/State.lean ====
section
/-!
SUPPORT. What each update of State leaves in each field: one lemma a field, true by unfolding the update once.
-/

namespace Sys2Proof.Machine

/-! ## `State.setVram` -/

@[simp] theorem State.setVram_vram (s : State) (i : Nat) (v : Byte) : (s.setVram i v).vram = Memory.write s.vram i v := rfl
@[simp] theorem State.setVram_aram (s : State) (i : Nat) (v : Byte) : (s.setVram i v).aram = s.aram := rfl
@[simp] theorem State.setVram_wram (s : State) (i : Nat) (v : Byte) : (s.setVram i v).wram = s.wram := rfl
@[simp] theorem State.setVram_muxSel (s : State) (i : Nat) (v : Byte) : (s.setVram i v).muxSel = s.muxSel := rfl
@[simp] theorem State.setVram_intLine (s : State) (i : Nat) (v : Byte) : (s.setVram i v).intLine = s.intLine := rfl
@[simp] theorem State.setVram_dirty (s : State) (i : Nat) (v : Byte) : (s.setVram i v).dirty = s.dirty := rfl
@[simp] theorem State.setVram_fb (s : State) (i : Nat) (v : Byte) : (s.setVram i v).fb = s.fb := rfl
@[simp] theorem State.setVram_crtc (s : State) (i : Nat) (v : Byte) : (s.setVram i v).crtc = s.crtc := rfl
@[simp] theorem State.setVram_cfg (s : State) (i : Nat) (v : Byte) : (s.setVram i v).cfg = s.cfg := rfl
@[simp] theorem State.setVram_ports (s : State) (i : Nat) (v : Byte) : (s.setVram i v).ports = s.ports := rfl
@[simp] theorem State.setVram_pending (s : State) (i : Nat) (v : Byte) : (s.setVram i v).pending = s.pending := rfl
@[simp] theorem State.setVram_ticks (s : State) (i : Nat) (v : Byte) : (s.setVram i v).ticks = s.ticks := rfl
@[simp] theorem State.setVram_draws (s : State) (i : Nat) (v : Byte) : (s.setVram i v).draws = s.draws := rfl
@[simp] theorem State.setVram_epoch (s : State) (i : Nat) (v : Byte) : (s.setVram i v).epoch = s.epoch := rfl
@[simp] theorem State.setVram_outputs (s : State) (i : Nat) (v : Byte) : (s.setVram i v).outputs = s.outputs := rfl

/-! ## `State.setAram` -/

@[simp] theorem State.setAram_vram (s : State) (i : Nat) (v : Byte) : (s.setAram i v).vram = s.vram := rfl
@[simp] theorem State.setAram_aram (s : State) (i : Nat) (v : Byte) : (s.setAram i v).aram = Memory.write s.aram i v := rfl
@[simp] theorem State.setAram_wram (s : State) (i : Nat) (v : Byte) : (s.setAram i v).wram = s.wram := rfl
@[simp] theorem State.setAram_muxSel (s : State) (i : Nat) (v : Byte) : (s.setAram i v).muxSel = s.muxSel := rfl
@[simp] theorem State.setAram_intLine (s : State) (i : Nat) (v : Byte) : (s.setAram i v).intLine = s.intLine := rfl
@[simp] theorem State.setAram_dirty (s : State) (i : Nat) (v : Byte) : (s.setAram i v).dirty = s.dirty := rfl
@[simp] theorem State.setAram_fb (s : State) (i : Nat) (v : Byte) : (s.setAram i v).fb = s.fb := rfl
@[simp] theorem State.setAram_crtc (s : State) (i : Nat) (v : Byte) : (s.setAram i v).crtc = s.crtc := rfl
@[simp] theorem State.setAram_cfg (s : State) (i : Nat) (v : Byte) : (s.setAram i v).cfg = s.cfg := rfl
@[simp] theorem State.setAram_ports (s : State) (i : Nat) (v : Byte) : (s.setAram i v).ports = s.ports := rfl
@[simp] theorem State.setAram_pending (s : State) (i : Nat) (v : Byte) : (s.setAram i v).pending = s.pending := rfl
@[simp] theorem State.setAram_ticks (s : State) (i : Nat) (v : Byte) : (s.setAram i v).ticks = s.ticks := rfl
@[simp] theorem State.setAram_draws (s : State) (i : Nat) (v : Byte) : (s.setAram i v).draws = s.draws := rfl
@[simp] theorem State.setAram_epoch (s : State) (i : Nat) (v : Byte) : (s.setAram i v).epoch = s.epoch := rfl
@[simp] theorem State.setAram_outputs (s : State) (i : Nat) (v : Byte) : (s.setAram i v).outputs = s.outputs := rfl

/-! ## `State.setWram` -/

@[simp] theorem State.setWram_vram (s : State) (i : Nat) (v : Byte) : (s.setWram i v).vram = s.vram := rfl
@[simp] theorem State.setWram_aram (s : State) (i : Nat) (v : Byte) : (s.setWram i v).aram = s.aram := rfl
@[simp] theorem State.setWram_wram (s : State) (i : Nat) (v : Byte) : (s.setWram i v).wram = Memory.write s.wram i v := rfl
@[simp] theorem State.setWram_muxSel (s : State) (i : Nat) (v : Byte) : (s.setWram i v).muxSel = s.muxSel := rfl
@[simp] theorem State.setWram_intLine (s : State) (i : Nat) (v : Byte) : (s.setWram i v).intLine = s.intLine := rfl
@[simp] theorem State.setWram_dirty (s : State) (i : Nat) (v : Byte) : (s.setWram i v).dirty = s.dirty := rfl
@[simp] theorem State.setWram_fb (s : State) (i : Nat) (v : Byte) : (s.setWram i v).fb = s.fb := rfl
@[simp] theorem State.setWram_crtc (s : State) (i : Nat) (v : Byte) : (s.setWram i v).crtc = s.crtc := rfl
@[simp] theorem State.setWram_cfg (s : State) (i : Nat) (v : Byte) : (s.setWram i v).cfg = s.cfg := rfl
@[simp] theorem State.setWram_ports (s : State) (i : Nat) (v : Byte) : (s.setWram i v).ports = s.ports := rfl
@[simp] theorem State.setWram_pending (s : State) (i : Nat) (v : Byte) : (s.setWram i v).pending = s.pending := rfl
@[simp] theorem State.setWram_ticks (s : State) (i : Nat) (v : Byte) : (s.setWram i v).ticks = s.ticks := rfl
@[simp] theorem State.setWram_draws (s : State) (i : Nat) (v : Byte) : (s.setWram i v).draws = s.draws := rfl
@[simp] theorem State.setWram_epoch (s : State) (i : Nat) (v : Byte) : (s.setWram i v).epoch = s.epoch := rfl
@[simp] theorem State.setWram_outputs (s : State) (i : Nat) (v : Byte) : (s.setWram i v).outputs = s.outputs := rfl

/-! ## `State.setMux` -/

@[simp] theorem State.setMux_vram (s : State) (k : BitVec 2) : (s.setMux k).vram = s.vram := rfl
@[simp] theorem State.setMux_aram (s : State) (k : BitVec 2) : (s.setMux k).aram = s.aram := rfl
@[simp] theorem State.setMux_wram (s : State) (k : BitVec 2) : (s.setMux k).wram = s.wram := rfl
@[simp] theorem State.setMux_muxSel (s : State) (k : BitVec 2) : (s.setMux k).muxSel = k := rfl
@[simp] theorem State.setMux_intLine (s : State) (k : BitVec 2) : (s.setMux k).intLine = s.intLine := rfl
@[simp] theorem State.setMux_dirty (s : State) (k : BitVec 2) : (s.setMux k).dirty = s.dirty := rfl
@[simp] theorem State.setMux_fb (s : State) (k : BitVec 2) : (s.setMux k).fb = s.fb := rfl
@[simp] theorem State.setMux_crtc (s : State) (k : BitVec 2) : (s.setMux k).crtc = s.crtc := rfl
@[simp] theorem State.setMux_cfg (s : State) (k : BitVec 2) : (s.setMux k).cfg = s.cfg := rfl
@[simp] theorem State.setMux_ports (s : State) (k : BitVec 2) : (s.setMux k).ports = s.ports := rfl
@[simp] theorem State.setMux_pending (s : State) (k : BitVec 2) : (s.setMux k).pending = s.pending := rfl
@[simp] theorem State.setMux_ticks (s : State) (k : BitVec 2) : (s.setMux k).ticks = s.ticks := rfl
@[simp] theorem State.setMux_draws (s : State) (k : BitVec 2) : (s.setMux k).draws = s.draws := rfl
@[simp] theorem State.setMux_epoch (s : State) (k : BitVec 2) : (s.setMux k).epoch = s.epoch := rfl
@[simp] theorem State.setMux_outputs (s : State) (k : BitVec 2) : (s.setMux k).outputs = s.outputs := rfl

/-! ## `State.setCrtc` -/

@[simp] theorem State.setCrtc_vram (s : State) (c : Nat) : (s.setCrtc c).vram = s.vram := rfl
@[simp] theorem State.setCrtc_aram (s : State) (c : Nat) : (s.setCrtc c).aram = s.aram := rfl
@[simp] theorem State.setCrtc_wram (s : State) (c : Nat) : (s.setCrtc c).wram = s.wram := rfl
@[simp] theorem State.setCrtc_muxSel (s : State) (c : Nat) : (s.setCrtc c).muxSel = s.muxSel := rfl
@[simp] theorem State.setCrtc_intLine (s : State) (c : Nat) : (s.setCrtc c).intLine = s.intLine := rfl
@[simp] theorem State.setCrtc_dirty (s : State) (c : Nat) : (s.setCrtc c).dirty = s.dirty := rfl
@[simp] theorem State.setCrtc_fb (s : State) (c : Nat) : (s.setCrtc c).fb = s.fb := rfl
@[simp] theorem State.setCrtc_crtc (s : State) (c : Nat) : (s.setCrtc c).crtc = c := rfl
@[simp] theorem State.setCrtc_cfg (s : State) (c : Nat) : (s.setCrtc c).cfg = s.cfg := rfl
@[simp] theorem State.setCrtc_ports (s : State) (c : Nat) : (s.setCrtc c).ports = s.ports := rfl
@[simp] theorem State.setCrtc_pending (s : State) (c : Nat) : (s.setCrtc c).pending = s.pending := rfl
@[simp] theorem State.setCrtc_ticks (s : State) (c : Nat) : (s.setCrtc c).ticks = s.ticks := rfl
@[simp] theorem State.setCrtc_draws (s : State) (c : Nat) : (s.setCrtc c).draws = s.draws := rfl
@[simp] theorem State.setCrtc_epoch (s : State) (c : Nat) : (s.setCrtc c).epoch = s.epoch := rfl
@[simp] theorem State.setCrtc_outputs (s : State) (c : Nat) : (s.setCrtc c).outputs = s.outputs := rfl

/-! ## `State.respond` -/

@[simp] theorem State.respond_vram (s : State) (v : Byte) : (s.respond v).vram = s.vram := rfl
@[simp] theorem State.respond_aram (s : State) (v : Byte) : (s.respond v).aram = s.aram := rfl
@[simp] theorem State.respond_wram (s : State) (v : Byte) : (s.respond v).wram = s.wram := rfl
@[simp] theorem State.respond_muxSel (s : State) (v : Byte) : (s.respond v).muxSel = s.muxSel := rfl
@[simp] theorem State.respond_intLine (s : State) (v : Byte) : (s.respond v).intLine = s.intLine := rfl
@[simp] theorem State.respond_dirty (s : State) (v : Byte) : (s.respond v).dirty = s.dirty := rfl
@[simp] theorem State.respond_fb (s : State) (v : Byte) : (s.respond v).fb = s.fb := rfl
@[simp] theorem State.respond_crtc (s : State) (v : Byte) : (s.respond v).crtc = s.crtc := rfl
@[simp] theorem State.respond_cfg (s : State) (v : Byte) : (s.respond v).cfg = s.cfg := rfl
@[simp] theorem State.respond_ports (s : State) (v : Byte) : (s.respond v).ports = s.ports := rfl
@[simp] theorem State.respond_pending (s : State) (v : Byte) : (s.respond v).pending = s.pending := rfl
@[simp] theorem State.respond_ticks (s : State) (v : Byte) : (s.respond v).ticks = s.ticks := rfl
@[simp] theorem State.respond_draws (s : State) (v : Byte) : (s.respond v).draws = s.draws := rfl
@[simp] theorem State.respond_epoch (s : State) (v : Byte) : (s.respond v).epoch = s.epoch := rfl
@[simp] theorem State.respond_outputs (s : State) (v : Byte) : (s.respond v).outputs = s.outputs ++ [.readResult v] := rfl

/-! ## `State.respondDraw` -/

@[simp] theorem State.respondDraw_vram (s : State) : (s.respondDraw).vram = s.vram := rfl
@[simp] theorem State.respondDraw_aram (s : State) : (s.respondDraw).aram = s.aram := rfl
@[simp] theorem State.respondDraw_wram (s : State) : (s.respondDraw).wram = s.wram := rfl
@[simp] theorem State.respondDraw_muxSel (s : State) : (s.respondDraw).muxSel = s.muxSel := rfl
@[simp] theorem State.respondDraw_intLine (s : State) : (s.respondDraw).intLine = s.intLine := rfl
@[simp] theorem State.respondDraw_dirty (s : State) : (s.respondDraw).dirty = s.dirty := rfl
@[simp] theorem State.respondDraw_fb (s : State) : (s.respondDraw).fb = s.fb := rfl
@[simp] theorem State.respondDraw_crtc (s : State) : (s.respondDraw).crtc = s.crtc := rfl
@[simp] theorem State.respondDraw_cfg (s : State) : (s.respondDraw).cfg = s.cfg := rfl
@[simp] theorem State.respondDraw_ports (s : State) : (s.respondDraw).ports = s.ports := rfl
@[simp] theorem State.respondDraw_pending (s : State) : (s.respondDraw).pending = s.pending := rfl
@[simp] theorem State.respondDraw_ticks (s : State) : (s.respondDraw).ticks = s.ticks := rfl
@[simp] theorem State.respondDraw_draws (s : State) : (s.respondDraw).draws = s.draws + 1 := rfl
@[simp] theorem State.respondDraw_epoch (s : State) : (s.respondDraw).epoch = s.epoch := rfl
@[simp] theorem State.respondDraw_outputs (s : State) : (s.respondDraw).outputs = s.outputs ++ [.readResult (Config.drawByte s.draws)] := rfl

/-! ## `State.driveLine` -/

@[simp] theorem State.driveLine_vram (s : State) (l : Line) : (s.driveLine l).vram = s.vram := rfl
@[simp] theorem State.driveLine_aram (s : State) (l : Line) : (s.driveLine l).aram = s.aram := rfl
@[simp] theorem State.driveLine_wram (s : State) (l : Line) : (s.driveLine l).wram = s.wram := rfl
@[simp] theorem State.driveLine_muxSel (s : State) (l : Line) : (s.driveLine l).muxSel = s.muxSel := rfl
@[simp] theorem State.driveLine_intLine (s : State) (l : Line) : (s.driveLine l).intLine = l := rfl
@[simp] theorem State.driveLine_dirty (s : State) (l : Line) : (s.driveLine l).dirty = s.dirty := rfl
@[simp] theorem State.driveLine_fb (s : State) (l : Line) : (s.driveLine l).fb = s.fb := rfl
@[simp] theorem State.driveLine_crtc (s : State) (l : Line) : (s.driveLine l).crtc = s.crtc := rfl
@[simp] theorem State.driveLine_cfg (s : State) (l : Line) : (s.driveLine l).cfg = s.cfg := rfl
@[simp] theorem State.driveLine_ports (s : State) (l : Line) : (s.driveLine l).ports = s.ports := rfl
@[simp] theorem State.driveLine_pending (s : State) (l : Line) : (s.driveLine l).pending = s.pending := rfl
@[simp] theorem State.driveLine_ticks (s : State) (l : Line) : (s.driveLine l).ticks = s.ticks := rfl
@[simp] theorem State.driveLine_draws (s : State) (l : Line) : (s.driveLine l).draws = s.draws := rfl
@[simp] theorem State.driveLine_epoch (s : State) (l : Line) : (s.driveLine l).epoch = s.epoch := rfl
@[simp] theorem State.driveLine_outputs (s : State) (l : Line) : (s.driveLine l).outputs = s.outputs ++ [.setInterruptLine 1 l] := rfl

/-! ## `State.invalidate` -/

@[simp] theorem State.invalidate_vram (s : State) (i : Nat) : (s.invalidate i).vram = s.vram := rfl
@[simp] theorem State.invalidate_aram (s : State) (i : Nat) : (s.invalidate i).aram = s.aram := rfl
@[simp] theorem State.invalidate_wram (s : State) (i : Nat) : (s.invalidate i).wram = s.wram := rfl
@[simp] theorem State.invalidate_muxSel (s : State) (i : Nat) : (s.invalidate i).muxSel = s.muxSel := rfl
@[simp] theorem State.invalidate_intLine (s : State) (i : Nat) : (s.invalidate i).intLine = s.intLine := rfl
@[simp] theorem State.invalidate_dirty (s : State) (i : Nat) : (s.invalidate i).dirty = s.dirty.setIfInBounds i true := rfl
@[simp] theorem State.invalidate_fb (s : State) (i : Nat) : (s.invalidate i).fb = s.fb := rfl
@[simp] theorem State.invalidate_crtc (s : State) (i : Nat) : (s.invalidate i).crtc = s.crtc := rfl
@[simp] theorem State.invalidate_cfg (s : State) (i : Nat) : (s.invalidate i).cfg = s.cfg := rfl
@[simp] theorem State.invalidate_ports (s : State) (i : Nat) : (s.invalidate i).ports = s.ports := rfl
@[simp] theorem State.invalidate_pending (s : State) (i : Nat) : (s.invalidate i).pending = s.pending := rfl
@[simp] theorem State.invalidate_ticks (s : State) (i : Nat) : (s.invalidate i).ticks = s.ticks := rfl
@[simp] theorem State.invalidate_draws (s : State) (i : Nat) : (s.invalidate i).draws = s.draws := rfl
@[simp] theorem State.invalidate_epoch (s : State) (i : Nat) : (s.invalidate i).epoch = s.epoch := rfl
@[simp] theorem State.invalidate_outputs (s : State) (i : Nat) : (s.invalidate i).outputs = s.outputs := rfl

/-! ## `State.cleanAll` -/

@[simp] theorem State.cleanAll_vram (s : State) : (s.cleanAll).vram = s.vram := rfl
@[simp] theorem State.cleanAll_aram (s : State) : (s.cleanAll).aram = s.aram := rfl
@[simp] theorem State.cleanAll_wram (s : State) : (s.cleanAll).wram = s.wram := rfl
@[simp] theorem State.cleanAll_muxSel (s : State) : (s.cleanAll).muxSel = s.muxSel := rfl
@[simp] theorem State.cleanAll_intLine (s : State) : (s.cleanAll).intLine = s.intLine := rfl
@[simp] theorem State.cleanAll_dirty (s : State) : (s.cleanAll).dirty = Vector.replicate 1024 false := rfl
@[simp] theorem State.cleanAll_fb (s : State) : (s.cleanAll).fb = s.fb := rfl
@[simp] theorem State.cleanAll_crtc (s : State) : (s.cleanAll).crtc = s.crtc := rfl
@[simp] theorem State.cleanAll_cfg (s : State) : (s.cleanAll).cfg = s.cfg := rfl
@[simp] theorem State.cleanAll_ports (s : State) : (s.cleanAll).ports = s.ports := rfl
@[simp] theorem State.cleanAll_pending (s : State) : (s.cleanAll).pending = s.pending := rfl
@[simp] theorem State.cleanAll_ticks (s : State) : (s.cleanAll).ticks = s.ticks := rfl
@[simp] theorem State.cleanAll_draws (s : State) : (s.cleanAll).draws = s.draws := rfl
@[simp] theorem State.cleanAll_epoch (s : State) : (s.cleanAll).epoch = s.epoch := rfl
@[simp] theorem State.cleanAll_outputs (s : State) : (s.cleanAll).outputs = s.outputs := rfl

/-! ## `State.redraw` -/

@[simp] theorem State.redraw_vram (s : State) : (s.redraw).vram = s.vram := rfl
@[simp] theorem State.redraw_aram (s : State) : (s.redraw).aram = s.aram := rfl
@[simp] theorem State.redraw_wram (s : State) : (s.redraw).wram = s.wram := rfl
@[simp] theorem State.redraw_muxSel (s : State) : (s.redraw).muxSel = s.muxSel := rfl
@[simp] theorem State.redraw_intLine (s : State) : (s.redraw).intLine = s.intLine := rfl
@[simp] theorem State.redraw_dirty (s : State) : (s.redraw).dirty = s.dirty := rfl
@[simp] theorem State.redraw_fb (s : State) : (s.redraw).fb = s.refreshedPicture := rfl
@[simp] theorem State.redraw_crtc (s : State) : (s.redraw).crtc = s.crtc := rfl
@[simp] theorem State.redraw_cfg (s : State) : (s.redraw).cfg = s.cfg := rfl
@[simp] theorem State.redraw_ports (s : State) : (s.redraw).ports = s.ports := rfl
@[simp] theorem State.redraw_pending (s : State) : (s.redraw).pending = s.pending := rfl
@[simp] theorem State.redraw_ticks (s : State) : (s.redraw).ticks = s.ticks := rfl
@[simp] theorem State.redraw_draws (s : State) : (s.redraw).draws = s.draws := rfl
@[simp] theorem State.redraw_epoch (s : State) : (s.redraw).epoch = s.epoch := rfl
@[simp] theorem State.redraw_outputs (s : State) : (s.redraw).outputs = s.outputs := rfl

/-! ## `State.powerCycle` -/

@[simp] theorem State.powerCycle_vram (s : State) : (s.powerCycle).vram = [] := rfl
@[simp] theorem State.powerCycle_aram (s : State) : (s.powerCycle).aram = [] := rfl
@[simp] theorem State.powerCycle_wram (s : State) : (s.powerCycle).wram = s.wram := rfl
@[simp] theorem State.powerCycle_muxSel (s : State) : (s.powerCycle).muxSel = 0 := rfl
@[simp] theorem State.powerCycle_intLine (s : State) : (s.powerCycle).intLine = s.intLine := rfl
@[simp] theorem State.powerCycle_dirty (s : State) : (s.powerCycle).dirty = Vector.replicate 1024 true := rfl
@[simp] theorem State.powerCycle_fb (s : State) : (s.powerCycle).fb = powerOnPicture (s.epoch + 1) := rfl
@[simp] theorem State.powerCycle_crtc (s : State) : (s.powerCycle).crtc = Config.crtcInit := rfl
@[simp] theorem State.powerCycle_cfg (s : State) : (s.powerCycle).cfg = s.cfg := rfl
@[simp] theorem State.powerCycle_ports (s : State) : (s.powerCycle).ports = s.ports := rfl
@[simp] theorem State.powerCycle_pending (s : State) : (s.powerCycle).pending = s.pending := rfl
@[simp] theorem State.powerCycle_ticks (s : State) : (s.powerCycle).ticks = s.ticks := rfl
@[simp] theorem State.powerCycle_draws (s : State) : (s.powerCycle).draws = s.draws := rfl
@[simp] theorem State.powerCycle_epoch (s : State) : (s.powerCycle).epoch = s.epoch + 1 := rfl
@[simp] theorem State.powerCycle_outputs (s : State) : (s.powerCycle).outputs = s.outputs := rfl

/-! ## Bytes, flags and pixels an update leaves as they were -/

@[simp] theorem State.setVram_aramByte (s : State) (i : Nat) (v : Byte) (j : Nat) : (s.setVram i v).aramByte j = s.aramByte j := rfl
@[simp] theorem State.setVram_wramByte (s : State) (i : Nat) (v : Byte) (j : Nat) : (s.setVram i v).wramByte j = s.wramByte j := rfl
@[simp] theorem State.setVram_dirtyAt (s : State) (i : Nat) (v : Byte) (j : Nat) : (s.setVram i v).dirtyAt j = s.dirtyAt j := rfl
@[simp] theorem State.setVram_pixel (s : State) (i : Nat) (v : Byte) (py px : Nat) : (s.setVram i v).pixel py px = s.pixel py px := rfl

@[simp] theorem State.setAram_vramByte (s : State) (i : Nat) (v : Byte) (j : Nat) : (s.setAram i v).vramByte j = s.vramByte j := rfl
@[simp] theorem State.setAram_wramByte (s : State) (i : Nat) (v : Byte) (j : Nat) : (s.setAram i v).wramByte j = s.wramByte j := rfl
@[simp] theorem State.setAram_dirtyAt (s : State) (i : Nat) (v : Byte) (j : Nat) : (s.setAram i v).dirtyAt j = s.dirtyAt j := rfl
@[simp] theorem State.setAram_pixel (s : State) (i : Nat) (v : Byte) (py px : Nat) : (s.setAram i v).pixel py px = s.pixel py px := rfl

@[simp] theorem State.setWram_vramByte (s : State) (i : Nat) (v : Byte) (j : Nat) : (s.setWram i v).vramByte j = s.vramByte j := rfl
@[simp] theorem State.setWram_aramByte (s : State) (i : Nat) (v : Byte) (j : Nat) : (s.setWram i v).aramByte j = s.aramByte j := rfl
@[simp] theorem State.setWram_dirtyAt (s : State) (i : Nat) (v : Byte) (j : Nat) : (s.setWram i v).dirtyAt j = s.dirtyAt j := rfl
@[simp] theorem State.setWram_pixel (s : State) (i : Nat) (v : Byte) (py px : Nat) : (s.setWram i v).pixel py px = s.pixel py px := rfl

@[simp] theorem State.setMux_vramByte (s : State) (k : BitVec 2) (j : Nat) : (s.setMux k).vramByte j = s.vramByte j := rfl
@[simp] theorem State.setMux_aramByte (s : State) (k : BitVec 2) (j : Nat) : (s.setMux k).aramByte j = s.aramByte j := rfl
@[simp] theorem State.setMux_wramByte (s : State) (k : BitVec 2) (j : Nat) : (s.setMux k).wramByte j = s.wramByte j := rfl
@[simp] theorem State.setMux_dirtyAt (s : State) (k : BitVec 2) (j : Nat) : (s.setMux k).dirtyAt j = s.dirtyAt j := rfl
@[simp] theorem State.setMux_pixel (s : State) (k : BitVec 2) (py px : Nat) : (s.setMux k).pixel py px = s.pixel py px := rfl

@[simp] theorem State.setCrtc_vramByte (s : State) (c : Nat) (j : Nat) : (s.setCrtc c).vramByte j = s.vramByte j := rfl
@[simp] theorem State.setCrtc_aramByte (s : State) (c : Nat) (j : Nat) : (s.setCrtc c).aramByte j = s.aramByte j := rfl
@[simp] theorem State.setCrtc_wramByte (s : State) (c : Nat) (j : Nat) : (s.setCrtc c).wramByte j = s.wramByte j := rfl
@[simp] theorem State.setCrtc_dirtyAt (s : State) (c : Nat) (j : Nat) : (s.setCrtc c).dirtyAt j = s.dirtyAt j := rfl
@[simp] theorem State.setCrtc_pixel (s : State) (c : Nat) (py px : Nat) : (s.setCrtc c).pixel py px = s.pixel py px := rfl

@[simp] theorem State.respond_vramByte (s : State) (v : Byte) (j : Nat) : (s.respond v).vramByte j = s.vramByte j := rfl
@[simp] theorem State.respond_aramByte (s : State) (v : Byte) (j : Nat) : (s.respond v).aramByte j = s.aramByte j := rfl
@[simp] theorem State.respond_wramByte (s : State) (v : Byte) (j : Nat) : (s.respond v).wramByte j = s.wramByte j := rfl
@[simp] theorem State.respond_dirtyAt (s : State) (v : Byte) (j : Nat) : (s.respond v).dirtyAt j = s.dirtyAt j := rfl
@[simp] theorem State.respond_pixel (s : State) (v : Byte) (py px : Nat) : (s.respond v).pixel py px = s.pixel py px := rfl

@[simp] theorem State.respondDraw_vramByte (s : State) (j : Nat) : s.respondDraw.vramByte j = s.vramByte j := rfl
@[simp] theorem State.respondDraw_aramByte (s : State) (j : Nat) : s.respondDraw.aramByte j = s.aramByte j := rfl
@[simp] theorem State.respondDraw_wramByte (s : State) (j : Nat) : s.respondDraw.wramByte j = s.wramByte j := rfl
@[simp] theorem State.respondDraw_dirtyAt (s : State) (j : Nat) : s.respondDraw.dirtyAt j = s.dirtyAt j := rfl
@[simp] theorem State.respondDraw_pixel (s : State) (py px : Nat) : s.respondDraw.pixel py px = s.pixel py px := rfl

@[simp] theorem State.driveLine_vramByte (s : State) (l : Line) (j : Nat) : (s.driveLine l).vramByte j = s.vramByte j := rfl
@[simp] theorem State.driveLine_aramByte (s : State) (l : Line) (j : Nat) : (s.driveLine l).aramByte j = s.aramByte j := rfl
@[simp] theorem State.driveLine_wramByte (s : State) (l : Line) (j : Nat) : (s.driveLine l).wramByte j = s.wramByte j := rfl
@[simp] theorem State.driveLine_dirtyAt (s : State) (l : Line) (j : Nat) : (s.driveLine l).dirtyAt j = s.dirtyAt j := rfl
@[simp] theorem State.driveLine_pixel (s : State) (l : Line) (py px : Nat) : (s.driveLine l).pixel py px = s.pixel py px := rfl

@[simp] theorem State.invalidate_vramByte (s : State) (i : Nat) (j : Nat) : (s.invalidate i).vramByte j = s.vramByte j := rfl
@[simp] theorem State.invalidate_aramByte (s : State) (i : Nat) (j : Nat) : (s.invalidate i).aramByte j = s.aramByte j := rfl
@[simp] theorem State.invalidate_wramByte (s : State) (i : Nat) (j : Nat) : (s.invalidate i).wramByte j = s.wramByte j := rfl
@[simp] theorem State.invalidate_pixel (s : State) (i : Nat) (py px : Nat) : (s.invalidate i).pixel py px = s.pixel py px := rfl

@[simp] theorem State.cleanAll_vramByte (s : State) (j : Nat) : s.cleanAll.vramByte j = s.vramByte j := rfl
@[simp] theorem State.cleanAll_aramByte (s : State) (j : Nat) : s.cleanAll.aramByte j = s.aramByte j := rfl
@[simp] theorem State.cleanAll_wramByte (s : State) (j : Nat) : s.cleanAll.wramByte j = s.wramByte j := rfl
@[simp] theorem State.cleanAll_pixel (s : State) (py px : Nat) : s.cleanAll.pixel py px = s.pixel py px := rfl

@[simp] theorem State.redraw_vramByte (s : State) (j : Nat) : s.redraw.vramByte j = s.vramByte j := rfl
@[simp] theorem State.redraw_aramByte (s : State) (j : Nat) : s.redraw.aramByte j = s.aramByte j := rfl
@[simp] theorem State.redraw_wramByte (s : State) (j : Nat) : s.redraw.wramByte j = s.wramByte j := rfl
@[simp] theorem State.redraw_dirtyAt (s : State) (j : Nat) : s.redraw.dirtyAt j = s.dirtyAt j := rfl

@[simp] theorem State.powerCycle_wramByte (s : State) (j : Nat) : s.powerCycle.wramByte j = s.wramByte j := rfl

end Sys2Proof.Machine
end

