-- ==== Sys2Proof/Laws/Memory.lean ====
section
/-!
SUPPORT. The laws of a memory: a read after a write, and the canonical form every operation keeps; and what they say
of the bytes of the three memories after each update.
-/

namespace Sys2Proof

@[simp] theorem Memory.read_nil (i : Nat) : Memory.read [] i = none := rfl

@[simp] theorem Memory.read_cons (c : Host.Cell) (m : Memory) (i : Nat) :
    Memory.read (c :: m) i = if c.1 = i then some c.2 else Memory.read m i := rfl

/-- Reading the written index gives the written byte; every other index reads as before, whatever the memory's form. -/
theorem Memory.read_write (m : Memory) (i j : Nat) (v : Byte) :
    Memory.read (Memory.write m i v) j = if i = j then some v else Memory.read m j := by
  induction m with
  | nil => simp [Memory.write]
  | cons c m ih =>
    unfold Memory.write
    split
    · simp
    · split
      · rename_i h
        subst h
        by_cases hj : c.1 = j <;> simp [hj]
      · rename_i h
        by_cases hc : c.1 = j
        · have : i ≠ j := fun e => h (hc.trans e.symm)
          simp [hc, this]
        · simp [hc, ih]

theorem Memory.all_write (p : Host.Cell → Bool) (m : Memory) (i : Nat) (v : Byte) (hm : m.all p = true)
    (hi : p (i, v) = true) : (Memory.write m i v).all p = true := by
  induction m with
  | nil => simp [Memory.write, hi]
  | cons c m ih =>
    simp only [List.all_cons, Bool.and_eq_true] at hm
    unfold Memory.write
    split
    · simp [hi, hm.1, hm.2]
    · split
      · simp [hi, hm.2]
      · simp [hm.1, ih hm.2]

/-- A write keeps the canonical form. -/
theorem Memory.wf_write (m : Memory) (i : Nat) (v : Byte) (hm : Memory.wf m = true) :
    Memory.wf (Memory.write m i v) = true := by
  induction m with
  | nil => rfl
  | cons c m ih =>
    simp only [Memory.wf, Bool.and_eq_true] at hm
    obtain ⟨hc, hw⟩ := hm
    unfold Memory.write
    split
    · rename_i hlt
      simp only [Memory.wf, Bool.and_eq_true, List.all_cons, decide_eq_true_eq]
      refine ⟨⟨hlt, ?_⟩, hc, hw⟩
      simp only [List.all_eq_true, decide_eq_true_eq] at hc ⊢
      exact fun d hd => lt_trans hlt (hc d hd)
    · split
      · rename_i heq
        subst heq
        simp [Memory.wf, hc, hw]
      · rename_i hle hne
        simp only [Memory.wf, Bool.and_eq_true]
        refine ⟨Memory.all_write _ _ _ _ hc ?_, ih hw⟩
        simp only [decide_eq_true_eq]
        omega

/-- A write at a cell of the memory keeps every entry inside it. -/
theorem Memory.inside_write (n : Nat) (m : Memory) (i : Nat) (v : Byte) (hm : Memory.inside n m = true) (hi : i < n) :
    Memory.inside n (Memory.write m i v) = true :=
  Memory.all_write _ _ _ _ hm (by simpa using hi)

namespace Machine

/-! ## Bytes after each update -/

@[simp] theorem State.setVram_vramByte (s : State) (i j : Nat) (v : Byte) :
    (s.setVram i v).vramByte j = if i = j then v else s.vramByte j := by
  simp only [State.vramByte, State.setVram_vram, State.setVram_epoch, Memory.read_write]
  split <;> rfl

@[simp] theorem State.setAram_aramByte (s : State) (i j : Nat) (v : Byte) :
    (s.setAram i v).aramByte j = if i = j then v else s.aramByte j := by
  simp only [State.aramByte, State.setAram_aram, State.setAram_epoch, Memory.read_write]
  split <;> rfl

@[simp] theorem State.setWram_wramByte (s : State) (i j : Nat) (v : Byte) :
    (s.setWram i v).wramByte j = if i = j then v else s.wramByte j := by
  simp only [State.wramByte, State.setWram_wram, Memory.read_write]
  split <;> rfl

/-- Two states with the same video memory and epoch read the same video bytes. -/
theorem State.vramByte_congr {s t : State} (h : t.vram = s.vram) (he : t.epoch = s.epoch) (j : Nat) :
    t.vramByte j = s.vramByte j := by simp [State.vramByte, h, he]

/-- Two states with the same attribute memory and epoch read the same attribute bytes. -/
theorem State.aramByte_congr {s t : State} (h : t.aram = s.aram) (he : t.epoch = s.epoch) (j : Nat) :
    t.aramByte j = s.aramByte j := by simp [State.aramByte, h, he]

/-- Two states with the same working memory read the same working bytes. -/
theorem State.wramByte_congr {s t : State} (h : t.wram = s.wram) (j : Nat) : t.wramByte j = s.wramByte j := by
  simp [State.wramByte, h]

/-- Two states with the same frame buffer have the same pixels. -/
theorem State.pixel_congr {s t : State} (h : t.fb = s.fb) (py px : Nat) : t.pixel py px = s.pixel py px := by
  simp [State.pixel, h]

/-! ## Flags after each update -/

/-- `Invalidate(i)` sets flag `i`, if there is such a slot, and no other. -/
@[simp] theorem State.invalidate_dirtyAt (s : State) (i j : Nat) :
    (s.invalidate i).dirtyAt j = if i = j ∧ i < 1024 then true else s.dirtyAt j := by
  simp only [State.dirtyAt, State.invalidate_dirty, Vector.getElem?_setIfInBounds]
  by_cases h : i = j
  · subst h
    by_cases hi : i < 1024 <;> simp [hi]
  · simp [h]

@[simp] theorem State.cleanAll_dirtyAt (s : State) (j : Nat) : s.cleanAll.dirtyAt j = false := by
  simp only [State.dirtyAt, State.cleanAll_dirty, Vector.getElem?_replicate]
  split <;> rfl

@[simp] theorem State.powerCycle_vramByte (s : State) (j : Nat) :
    s.powerCycle.vramByte j = Config.powerOnVram (s.epoch + 1) j := rfl

@[simp] theorem State.powerCycle_aramByte (s : State) (j : Nat) :
    s.powerCycle.aramByte j = Config.powerOnAram (s.epoch + 1) j := rfl

theorem State.powerCycle_dirtyAt (s : State) (j : Nat) (h : j < 1024) : s.powerCycle.dirtyAt j = true := by
  simp [State.dirtyAt, h]

/-- Two states with the same dirty set have the same flags. -/
theorem State.dirtyAt_congr {s t : State} (h : t.dirty = s.dirty) (j : Nat) : t.dirtyAt j = s.dirtyAt j := by
  simp [State.dirtyAt, h]

/-! ## Pixels -/

/-- A picture made cell by cell holds at each cell what it was made from. -/
theorem pixel_of_ofFn {s : State} {f : Nat → Nat → Pixel}
    (h : s.fb = Vector.ofFn fun py => Vector.ofFn fun px => f py.val px.val) {py px : Nat} (hy : py < 256)
    (hx : px < 256) : s.pixel py px = f py px := by
  simp [State.pixel, h, hy, hx]

/-- After POWERON number `e` every pixel is its free value. -/
theorem pixel_of_powerOnPicture {s : State} {e : Nat} (h : s.fb = powerOnPicture e) {py px : Nat} (hy : py < 256)
    (hx : px < 256) : s.pixel py px = Config.powerOnPixel e py px := by
  unfold powerOnPicture at h
  exact pixel_of_ofFn h hy hx

/-- After a refresh every pixel is the refreshed one. -/
theorem pixel_of_refreshedPicture {s t : State} (h : t.fb = s.refreshedPicture) {py px : Nat} (hy : py < 256)
    (hx : px < 256) : t.pixel py px = s.refreshedPixel py px := by
  unfold State.refreshedPicture at h
  exact pixel_of_ofFn h hy hx

/-- Two pictures with the same pixel at every cell are the same. -/
theorem fb_ext {s t : State} (h : ∀ py px, py < 256 → px < 256 → s.pixel py px = t.pixel py px) : s.fb = t.fb := by
  apply Vector.ext
  intro py hy
  apply Vector.ext
  intro px hx
  have := h py px hy hx
  simpa [State.pixel, hy, hx] using this

end Machine

end Sys2Proof
end

