-- ==== Sys2Proof/Laws/Exec.lean ====
section
/-!
SUPPORT. What each operation does, once: its next state where its operands are its row's, and the one inversion lemma
over all of them.
-/

namespace Sys2Proof.Machine

/-- The guard answers what it guards where the address selects the row. -/
theorem inRow_of_selects {r : Region} {a : Nat} {s : State} {o : Result} (h : selects s.cfg r a = true) :
    inRow r a s o = o := by
  simp [inRow, h]

/-- The guard answers a next state only where the address selects the row. -/
theorem inRow_eq_next {r : Region} {a : Nat} {s t : State} {o : Result} (h : inRow r a s o = .next t) :
    selects s.cfg r a = true ∧ o = .next t := by
  unfold inRow at h
  split at h
  · exact ⟨by assumption, h⟩
  · cases h

/-- The state an operation leads to, its operands being its row's. -/
def effect (s : State) : Instr → State
  | .mrdRom a => s.respond (romByte s.cfg (cellIndex s.cfg.romLo a))
  | .mwrRom _ _ => s
  | .mrdVram a => s.respond (s.vramByte (cellIndex s.cfg.vramLo a))
  | .mwrVram a v => (s.setVram (cellIndex s.cfg.vramLo a) v).invalidate (cellIndex s.cfg.vramLo a)
  | .mrdWram a => s.respond (s.wramByte (cellIndex s.cfg.wramLo a))
  | .mwrWram a v => s.setWram (cellIndex s.cfg.wramLo a) v
  | .mrdAram a => s.respond (s.aramByte (cellIndex s.cfg.aramLo a))
  | .mwrAram a v => (s.setAram (cellIndex s.cfg.aramLo a) v).invalidate (cellIndex s.cfg.aramLo a)
  | .mrdCrtc0 _ => (s.setCrtc (Config.crtcStatusRead s.crtc).2).respond (Config.crtcStatusRead s.crtc).1
  | .mwrCrtc0 _ v => s.setCrtc (Config.crtcAddressWrite v s.crtc)
  | .mrdCrtc1 _ => (s.setCrtc (Config.crtcRegisterRead s.crtc).2).respond (Config.crtcRegisterRead s.crtc).1
  | .mwrCrtc1 _ v => s.setCrtc (Config.crtcRegisterWrite v s.crtc)
  | .mrdUnmapped _ => s.respondDraw
  | .mwrUnmapped _ _ => s
  | .cwrIntack => s.driveLine .clear
  | .cwrMux1 => s.setMux 1
  | .cwrMux2 => s.setMux 2
  | .cwrMux3 => s.setMux 3
  | .cwrOther _ _ => s
  | .crdMux => s.respond s.readMuxInput
  | .crdOther _ => s.respondDraw
  | .fsync => s.driveLine .asserted
  | .refresh => s.redraw.cleanAll
  | .poweron => s.powerCycle.driveLine .clear

/-- A well-formed operation has its effect; any other is refused by name. -/
theorem exec_eq (i : Instr) (s : State) :
    exec i s = if WellFormed s.cfg i = true then .next (effect s i) else .refused .operandOfAnotherRow := by
  cases i <;> rfl

/-- Everything an operation can do: it answers a next state exactly when it is well-formed, and then this one. -/
theorem exec_next {i : Instr} {s t : State} (h : exec i s = .next t) : WellFormed s.cfg i = true ∧ t = effect s i := by
  rw [exec_eq] at h
  split at h
  · cases h
    exact ⟨by assumption, rfl⟩
  · cases h

/-- A well-formed operation completes. -/
theorem exec_of_wellFormed {i : Instr} {s : State} (h : WellFormed s.cfg i = true) : exec i s = .next (effect s i) := by
  rw [exec_eq, if_pos h]

/-- No operation changes the configuration. -/
@[simp] theorem effect_cfg (s : State) (i : Instr) : (effect s i).cfg = s.cfg := by
  cases i <;> rfl

end Sys2Proof.Machine
end

