-- ==== Sys2Proof/Laws/Geometry.lean ====
section
/-!
SUPPORT. The slot geometry in plain arithmetic (spec/41_tile_renderer.md R101, R106).
-/

namespace Sys2Proof.Machine

theorem slotRow_eq (i : Nat) : slotRow i = i / 32 := by simp [slotRow, Nat.shiftRight_eq_div_pow]

theorem slotCol_eq (i : Nat) : slotCol i = i % 32 := Nat.and_two_pow_sub_one_eq_mod i 5

/-- A pixel of slot `i` lies in the frame buffer. -/
theorem slotPixel_lt {i : Nat} (hi : i < 1024) (y x : BitVec 3) :
    slotRow i * 8 + y.toNat < 256 ∧ slotCol i * 8 + x.toNat < 256 := by
  have hy := y.isLt
  have hx := x.isLt
  rw [slotRow_eq, slotCol_eq]
  omega

/-- Each pixel of slot `i` is owned by slot `i`. -/
theorem slotOfPixel_slot (i : Nat) (y x : BitVec 3) :
    slotOfPixel (slotRow i * 8 + y.toNat) (slotCol i * 8 + x.toNat) = i := by
  have hy := y.isLt
  have hx := x.isLt
  rw [slotRow_eq, slotCol_eq]
  unfold slotOfPixel
  omega

/-- The tile coordinate of a pixel of a slot. -/
theorem tileLine_slot (r : Nat) (y : BitVec 3) : tileLine (r * 8 + y.toNat) = y := by
  have hy := y.isLt
  apply BitVec.eq_of_toNat_eq
  simp only [tileLine, BitVec.toNat_ofNat]
  omega

/-- Every pixel is the pixel of its slot at its tile coordinates. -/
theorem pixel_of_slot {py px : Nat} (hx : px < 256) :
    py = slotRow (slotOfPixel py px) * 8 + (tileLine py).toNat ∧
      px = slotCol (slotOfPixel py px) * 8 + (tileLine px).toNat := by
  rw [slotRow_eq, slotCol_eq]
  simp only [tileLine, BitVec.toNat_ofNat, slotOfPixel]
  omega

theorem slotOfPixel_lt {py px : Nat} (hy : py < 256) (hx : px < 256) : slotOfPixel py px < 1024 := by
  unfold slotOfPixel
  omega

end Sys2Proof.Machine
end

