-- ==== Sys2Proof/Laws/PerInstr.lean ====
section
/-!
SUPPORT. Statements made per operation. EncodeFits: the word of a well-formed operation fits its format (R51).
-/

namespace Sys2Proof.Laws

/-- The encoded word has no bit outside its format's width, under every configuration of R8. -/
def EncodeFits.Statement (i : Instr) : Prop :=
  ∀ cfg : Cfg, cfg.Valid → WellFormed cfg i = true →
    (encode cfg i).word < 2 ^ formatWidth cfg (encode cfg i).format

theorem addr_lt_of_selects {cfg : Cfg} {r : Region} {a : Nat} (h : selects cfg r a = true) : a < 2 ^ cfg.aw := by
  have hp : 0 < 2 ^ cfg.aw := Nat.two_pow_pos _
  have ha : a ≤ 2 ^ cfg.aw - 1 := (selects_iff.1 h).1
  omega

theorem memReadWord_fits {cfg : Cfg} {r : Region} {a : Nat} (h : selects cfg r a = true) :
    (memReadWord a).word < 2 ^ formatWidth cfg (memReadWord a).format := by
  have := addr_lt_of_selects h
  simp only [memReadWord, formatWidth, Nat.pow_succ]
  omega

theorem memWriteWord_fits {cfg : Cfg} {r : Region} {a : Nat} (v : Byte) (h : selects cfg r a = true) :
    (memWriteWord cfg a v).word < 2 ^ formatWidth cfg (memWriteWord cfg a v).format := by
  have := addr_lt_of_selects h
  simp only [memWriteWord, formatWidth, Nat.pow_succ]
  omega

theorem cruWriteWord_fits (cfg : Cfg) (b : CruAddr) (value : BitVec 1) :
    (cruWriteWord b value).word < 2 ^ formatWidth cfg (cruWriteWord b value).format := by
  have hb := b.isLt
  have hv := value.isLt
  simp only [cruWriteWord, formatWidth]
  omega

theorem cruReadWord_fits (cfg : Cfg) (b : CruAddr) :
    (cruReadWord b).word < 2 ^ formatWidth cfg (cruReadWord b).format := b.isLt

namespace EncodeFits

theorem mrdRom (a : Nat) : Statement (.mrdRom a) := fun _ _ h => memReadWord_fits h
theorem mwrRom (a : Nat) (v : Byte) : Statement (.mwrRom a v) := fun _ _ h => memWriteWord_fits v h
theorem mrdVram (a : Nat) : Statement (.mrdVram a) := fun _ _ h => memReadWord_fits h
theorem mwrVram (a : Nat) (v : Byte) : Statement (.mwrVram a v) := fun _ _ h => memWriteWord_fits v h
theorem mrdWram (a : Nat) : Statement (.mrdWram a) := fun _ _ h => memReadWord_fits h
theorem mwrWram (a : Nat) (v : Byte) : Statement (.mwrWram a v) := fun _ _ h => memWriteWord_fits v h
theorem mrdAram (a : Nat) : Statement (.mrdAram a) := fun _ _ h => memReadWord_fits h
theorem mwrAram (a : Nat) (v : Byte) : Statement (.mwrAram a v) := fun _ _ h => memWriteWord_fits v h
theorem mrdCrtc0 (a : Nat) : Statement (.mrdCrtc0 a) := fun _ _ h => memReadWord_fits h
theorem mwrCrtc0 (a : Nat) (v : Byte) : Statement (.mwrCrtc0 a v) := fun _ _ h => memWriteWord_fits v h
theorem mrdCrtc1 (a : Nat) : Statement (.mrdCrtc1 a) := fun _ _ h => memReadWord_fits h
theorem mwrCrtc1 (a : Nat) (v : Byte) : Statement (.mwrCrtc1 a v) := fun _ _ h => memWriteWord_fits v h
theorem mrdUnmapped (a : Nat) : Statement (.mrdUnmapped a) := fun _ _ h => memReadWord_fits h
theorem mwrUnmapped (a : Nat) (v : Byte) : Statement (.mwrUnmapped a v) := fun _ _ h => memWriteWord_fits v h
theorem cwrIntack : Statement .cwrIntack := fun cfg _ _ => cruWriteWord_fits cfg intackAddr 1
theorem cwrMux1 : Statement .cwrMux1 := fun cfg _ _ => cruWriteWord_fits cfg mux1Addr 1
theorem cwrMux2 : Statement .cwrMux2 := fun cfg _ _ => cruWriteWord_fits cfg mux2Addr 1
theorem cwrMux3 : Statement .cwrMux3 := fun cfg _ _ => cruWriteWord_fits cfg mux3Addr 1
theorem cwrOther (b : CruAddr) (value : BitVec 1) : Statement (.cwrOther b value) :=
  fun cfg _ _ => cruWriteWord_fits cfg b value
theorem crdMux : Statement .crdMux := fun cfg _ _ => cruReadWord_fits cfg cfg.muxReadAddr
theorem crdOther (b : CruAddr) : Statement (.crdOther b) := fun cfg _ _ => cruReadWord_fits cfg b
theorem fsync : Statement .fsync := fun _ _ _ => by simp [encode, triggerWord, formatWidth]
theorem refresh : Statement .refresh := fun _ _ _ => by simp [encode, triggerWord, formatWidth]
theorem poweron : Statement .poweron := fun _ _ _ => by simp [encode, triggerWord, formatWidth]

end EncodeFits

end Sys2Proof.Laws
end

