-- ==== Sys2Proof/Laws/Safety.lean ====
section
/-!
SUPPORT. What the definitions of `Safety` give: sequences of operations one at a time, and pictures slot by slot.
-/

namespace Sys2Proof.Machine

/-- A sequence that answers a next state starts with an operation that does, and goes on from there. -/
theorem runInstrs_cons {i : Instr} {is : List Instr} {s t : State} (h : runInstrs (i :: is) s = .next t) :
    ∃ u, exec i s = .next u ∧ runInstrs is u = .next t := by
  unfold runInstrs at h
  split at h
  · exact ⟨_, by assumption, h⟩
  · cases h
  · cases h

/-- Two pictures with the same pixels in every slot are one. -/
theorem fb_ext_slots {s t : State}
    (h : ∀ i, i < 1024 → ∀ y x : BitVec 3, s.pixel (slotRow i * 8 + y.toNat) (slotCol i * 8 + x.toNat) =
      t.pixel (slotRow i * 8 + y.toNat) (slotCol i * 8 + x.toNat)) : s.fb = t.fb := by
  apply fb_ext
  intro py px hy hx
  have hp := h (slotOfPixel py px) (slotOfPixel_lt hy hx) (tileLine py) (tileLine px)
  rwa [← (pixel_of_slot hx).1, ← (pixel_of_slot hx).2] at hp

/-- A pixel of a slot of a redrawn picture. -/
theorem State.redraw_pixel_slot (s : State) {i : Nat} (hi : i < 1024) (y x : BitVec 3) :
    s.redraw.pixel (slotRow i * 8 + y.toNat) (slotCol i * 8 + x.toNat) =
      if s.dirtyAt i then s.tilePixel i y x else s.pixel (slotRow i * 8 + y.toNat) (slotCol i * 8 + x.toNat) := by
  obtain ⟨h1, h2⟩ := slotPixel_lt hi y x
  rw [pixel_of_refreshedPicture (State.redraw_fb s) h1 h2, State.refreshedPixel, slotOfPixel_slot, tileLine_slot,
    tileLine_slot]

/-- The tile of a slot depends on the decode and the slot's own two cells. -/
theorem State.tilePixel_congr {s t : State} {i : Nat} (hc : t.cfg = s.cfg) (hv : t.vramByte i = s.vramByte i)
    (ha : t.aramByte i = s.aramByte i) (y x : BitVec 3) : t.tilePixel i y x = s.tilePixel i y x := by
  simp [State.tilePixel, State.bankOf, hc, hv, ha]

/-- A slot shows its cells in every state with the same picture, decode and cells of the slot. -/
theorem ShowsSlot.congr {s t : State} {i : Nat} (hc : t.cfg = s.cfg) (hv : t.vramByte i = s.vramByte i)
    (ha : t.aramByte i = s.aramByte i) (hf : t.fb = s.fb) (h : ShowsSlot s i) : ShowsSlot t i := by
  intro y x
  rw [State.pixel_congr hf, h y x, State.tilePixel_congr hc hv ha]

end Sys2Proof.Machine
end

