-- ==== Sys2Proof/Laws/Step.lean ====
section
/-!
SUPPORT. What taking an event changes, and the one inversion lemma of the step.
-/

namespace Sys2Proof.Machine

/-- Taking an event changes the waiting list, the counter of free events and the presented ports, and nothing else. -/
theorem State.take_frame (s : State) :
    s.take = { s with pending := s.take.pending, ticks := s.take.ticks, ports := s.take.ports } := by
  unfold State.take
  split <;> rfl

/-- The waiting event is taken from the head of the list. -/
theorem State.take_of_pending {s : State} {x : Stimulus} {rest : List Stimulus} (h : s.pending = x :: rest) :
    s.nextStimulus = x ∧ s.take = { s with pending := rest, ports := x.ports } := by
  simp [State.nextStimulus, State.take, h]

@[simp] theorem State.take_cfg (s : State) : s.take.cfg = s.cfg := by rw [State.take_frame]
@[simp] theorem State.take_vram (s : State) : s.take.vram = s.vram := by rw [State.take_frame]
@[simp] theorem State.take_aram (s : State) : s.take.aram = s.aram := by rw [State.take_frame]
@[simp] theorem State.take_wram (s : State) : s.take.wram = s.wram := by rw [State.take_frame]
@[simp] theorem State.take_muxSel (s : State) : s.take.muxSel = s.muxSel := by rw [State.take_frame]
@[simp] theorem State.take_intLine (s : State) : s.take.intLine = s.intLine := by rw [State.take_frame]
@[simp] theorem State.take_dirty (s : State) : s.take.dirty = s.dirty := by rw [State.take_frame]
@[simp] theorem State.take_fb (s : State) : s.take.fb = s.fb := by rw [State.take_frame]
@[simp] theorem State.take_crtc (s : State) : s.take.crtc = s.crtc := by rw [State.take_frame]
@[simp] theorem State.take_draws (s : State) : s.take.draws = s.draws := by rw [State.take_frame]
@[simp] theorem State.take_epoch (s : State) : s.take.epoch = s.epoch := by rw [State.take_frame]
@[simp] theorem State.take_outputs (s : State) : s.take.outputs = s.outputs := by rw [State.take_frame]

/-- Clearing bit 0 makes a CRU address even. -/
theorem oddAddr_evenMask (b : CruAddr) : oddAddr (b &&& evenMask) = false := by
  simp [oddAddr, evenMask]

/-- An even CRU address has nothing to clear. -/
theorem evenMask_of_even {b : CruAddr} (hb : oddAddr b = false) : b &&& evenMask = b := by
  have ones : ∀ k : Fin 13, 0 < k.val → evenMask.getLsbD k.val = true := by decide
  have h0 : b.getLsbD 0 = false := hb
  apply BitVec.eq_of_getLsbD_eq
  intro i hi
  rw [BitVec.getLsbD_and]
  rcases Nat.eq_zero_or_pos i with rfl | hpos
  · rw [h0, Bool.false_and]
  · rw [ones ⟨i, hi⟩ hpos, Bool.and_true]

/-- A free event is cut down to a legal one. -/
theorem Event.legal_legalise (cfg : Cfg) (e : Event) : Event.legal cfg (Event.legalise cfg e) = true := by
  cases e with
  | memRead raw => simp [Event.legalise, Event.legal, Nat.mod_lt]
  | memWrite raw v => simp [Event.legalise, Event.legal, Nat.mod_lt]
  | cruWrite b value => simp [Event.legalise, Event.legal, oddAddr_evenMask]
  | cruRead b => simp [Event.legalise, Event.legal, oddAddr_evenMask]
  | trigger n =>
    simp only [Event.legalise, Event.legal, decide_eq_true_eq]
    split
    · decide
    · assumption

/-- A legal event is left as it is: none is lost among the free ones. -/
theorem Event.legalise_of_legal {cfg : Cfg} {e : Event} (h : Event.legal cfg e = true) : Event.legalise cfg e = e := by
  cases e with
  | memRead raw => simp only [Event.legalise, Nat.mod_eq_of_lt (of_decide_eq_true h)]
  | memWrite raw v => simp only [Event.legalise, Nat.mod_eq_of_lt (of_decide_eq_true h)]
  | cruWrite b value => simp only [Event.legalise, evenMask_of_even (Bool.not_eq_true' _ |>.mp h)]
  | cruRead b => simp only [Event.legalise, evenMask_of_even (Bool.not_eq_true' _ |>.mp h)]
  | trigger n => simp only [Event.legalise, if_neg (of_decide_eq_true h)]

/-- Everything a step can do, where it answers a next state: an event decodes, and its operation is answered. -/
theorem step_next {s t : State} (h : step s = .next t) :
    ∃ i, decode s.cfg s.nextStimulus.event = .ok i ∧ exec i s.take = .next t := by
  unfold step at h
  split at h
  · exact ⟨_, by assumption, h⟩
  · cases h

/-- A step on an event that decodes is its operation. -/
theorem step_of_decode {s : State} {i : Instr} (h : decode s.cfg s.nextStimulus.event = .ok i) :
    step s = exec i s.take := by
  simp [step, h]

end Sys2Proof.Machine
end

