-- ==== Sys2Proof/Tests/Slice0.lean ====
section
/-!
SUPPORT. The model's own tests. Expected values are those of spec/95_test_vectors.md (worked there by hand from the
rules) or are written out from the encodings of spec/30_encoding.md. Then, for each statement with hypotheses, a
witness that meets them.
-/

namespace Sys2Proof.Tests

open Sys2Proof.Machine

/-! ## Fixtures -/

/-- The graphics ROM of V4: the bytes of bank 2 and bank 0, code 0x41, rows 0 and 7. -/
def gfxT : Memory :=
  [(0x0208, 0xFF), (0x120F, 0xFF), (0x1208, 0x81), (0x2208, 0x00), (0x3208, 0xC0), (0x320F, 0x0F), (0x4208, 0x00),
   (0x5208, 0x01), (0x520F, 0xAA)]

/-- `CFG_REF` with the ROM bytes of V2 and P3 and the graphics ROM of V4. -/
def cfgT : Cfg := { cfgRef with rom := [(5, 0x33), (0x0123, 0xA5)], gfx := .layout 0x2000 0x0800 gfxT }

/-- The start state of V2, with slot 33 as V5 has it and the ports of V7. -/
def board : State :=
  { State.reset with
    vram := [(5, 0x11), (33, 0x41)]
    aram := [(5, 0x01), (33, 0x02)]
    wram := [(5, 0x22)]
    muxSel := 2
    intLine := .asserted
    dirty := (Vector.replicate 1024 false).setIfInBounds 33 true
    cfg := cfgT
    ports := ⟨0x5A, 0x0F, 0xC3⟩
    outputs := [] }

/-- What is asked of the next state, where there is one. -/
def after {α : Type} (r : Result) (f : State → α) : Option α :=
  match r with
  | .next t => some (f t)
  | .fault _ => none
  | .refused _ => none

/-- The refusal, where there is one. -/
def refusal (r : Result) : Option Refusal :=
  match r with
  | .next _ => none
  | .fault _ => none
  | .refused w => some w

/-! ## Well-formedness: each check refuses an ill-formed term -/

theorem test_wellFormed_refuses :
    [Instr.mrdRom 0x3000, .mwrRom 0x3000 0, .mrdVram 0x2FFF, .mwrVram 0x3400 0, .mrdWram 0x33FF, .mwrWram 0x3800 0,
      .mrdAram 0x37FF, .mwrAram 0x3C00 0, .mrdCrtc0 0x3E01, .mwrCrtc0 0x3DFF 0, .mrdCrtc1 0x3E00, .mwrCrtc1 0x3E02 0,
      .mrdUnmapped 0x3E00, .mwrUnmapped 0x4000 0, .mrdVram 0x7000, .cwrOther 0x0CE2 1, .cwrOther 0x0CC2 1,
      .cwrOther 0x0CC4 1, .cwrOther 0x0CC6 1, .cwrOther 0x0CE3 0, .crdOther 0x0C80, .crdOther 0x0C81].all
      (fun i => !WellFormed cfgRef i) = true := by decide

theorem test_wellFormed_accepts :
    [Instr.mrdRom 0x2FFF, .mwrRom 0 0, .mrdVram 0x3000, .mwrVram 0x33FF 0, .mrdWram 0x3400, .mwrWram 0x37FF 0,
      .mrdAram 0x3800, .mwrAram 0x3BFF 0, .mrdCrtc0 0x3E00, .mwrCrtc0 0x3E00 0, .mrdCrtc1 0x3E01, .mwrCrtc1 0x3E01 0,
      .mrdUnmapped 0x3C00, .mwrUnmapped 0x3FFF 0, .cwrIntack, .cwrMux1, .cwrMux2, .cwrMux3, .cwrOther 0x0CE2 0,
      .cwrOther 0x1FFE 1, .crdMux, .crdOther 0x0CC2, .fsync, .refresh, .poweron].all (WellFormed cfgRef) = true := by
  decide

theorem test_cfgRef_valid : cfgRef.Valid := by decide

/-! ## Decoding: words written out from R51, R56 and the tables V1, V2, V6, V7 -/

/-- V1: each raw address and the class it decodes to. -/
theorem test_region_V1 :
    [0x0000, 0x2FFF, 0x3000, 0x33FF, 0x3400, 0x37FF, 0x3800, 0x3BFF, 0x3C00, 0x3DFF, 0x3E00, 0x3E01, 0x3E02, 0x3FFF,
      0x4000, 0x7000, 0xB821, 0xBE01, 0xF3FF, 0xFFFF].map (fun raw => region cfgRef (maskAddr cfgRef raw)) =
    [.rom, .rom, .vram, .vram, .wram, .wram, .aram, .aram, .unmapped, .unmapped, .crtc0, .crtc1, .unmapped, .unmapped,
      .rom, .vram, .aram, .crtc1, .vram, .unmapped] := by decide

/-- Format M, kind at bit 14 and `a` below it, datum apart (V2). -/
theorem test_decode_M_reads :
    [0b000000000000101, 0b011000000000101, 0b011010000000101, 0b011100000000101, 0b011111000000000, 0b011111000000001,
      0b011110000000101].map (fun w => decodeWord cfgRef ⟨.M, w, 0⟩) =
    [.ok (.mrdRom 0x0005), .ok (.mrdVram 0x3005), .ok (.mrdWram 0x3405), .ok (.mrdAram 0x3805), .ok (.mrdCrtc0 0x3E00),
      .ok (.mrdCrtc1 0x3E01), .ok (.mrdUnmapped 0x3C05)] := by decide

theorem test_decode_M_writes :
    [0x4005, 0x7005, 0x7405, 0x7805, 0x7E00, 0x7E01, 0x7C05].map (fun w => decodeWord cfgRef ⟨.M, w, 0x99⟩) =
    [.ok (.mwrRom 0x0005 0x99), .ok (.mwrVram 0x3005 0x99), .ok (.mwrWram 0x3405 0x99), .ok (.mwrAram 0x3805 0x99),
      .ok (.mwrCrtc0 0x3E00 0x99), .ok (.mwrCrtc1 0x3E01 0x99), .ok (.mwrUnmapped 0x3C05 0x99)] := by decide

/-- Format CW, bit by bit from R56, and the near misses of V6. -/
theorem test_decode_CW :
    [0b01100111000101, 0b01100110000101, 0b01100110001001, 0b01100110001101, 0x19C4, 0x39C5, 0x09C5, 0x1981, 0x1991,
      0x0001, 0x3FFD].map (fun w => decodeWord cfgRef ⟨.CW, w, 0⟩) =
    [.ok .cwrIntack, .ok .cwrMux1, .ok .cwrMux2, .ok .cwrMux3, .ok (.cwrOther 0x0CE2 0), .ok (.cwrOther 0x1CE2 1),
      .ok (.cwrOther 0x04E2 1), .ok (.cwrOther 0x0CC0 1), .ok (.cwrOther 0x0CC8 1), .ok (.cwrOther 0 1),
      .ok (.cwrOther 0x1FFE 1)] := by decide

/-- Format CR (V7). -/
theorem test_decode_CR :
    [0b0110010000000, 0x0C82, 0x0CE2, 0x1C80].map (fun w => decodeWord cfgRef ⟨.CR, w, 0⟩) =
    [.ok .crdMux, .ok (.crdOther 0x0C82), .ok (.crdOther 0x0CE2), .ok (.crdOther 0x1C80)] := by decide

/-- Format EV, and what no format has (R51, R55, R59). -/
theorem test_decode_EV_and_rejections :
    [decodeWord cfgRef ⟨.EV, 0, 0⟩, decodeWord cfgRef ⟨.EV, 1, 0⟩, decodeWord cfgRef ⟨.EV, 2, 0⟩,
      decodeWord cfgRef ⟨.EV, 3, 0⟩, decodeWord cfgRef ⟨.M, 0x8000, 0⟩, decode cfgRef (.cruWrite 0x0CE3 1),
      decode cfgRef (.cruRead 1), decode cfgRef (.memRead 0x10000)] =
    [.ok .fsync, .ok .refresh, .ok .poweron, .error .notAnEvent, .error .wordTooWide, .error .oddCruAddress,
      .error .oddCruAddress, .error .rawAddressTooWide] := by decide

/-- The table's words, as the host numbers them, and the opcode table's own choice for each. -/
theorem test_table_words :
    [(16, 0x3000), (16, 0x7E01), (16, 0x3C00), (16, 0x0000), (16, 0x4000), (16, 0x19C5), (16, 0x0C80), (8, 0), (8, 1),
      (8, 2), (8, 3)].map (fun p => (decodeTableWord p.1 p.2).map (·.mnemonic)) =
    [some "MRD.VRAM", some "MWR.CRTC1", some "MRD.UNMAPPED", some "MRD.ROM", some "MWR.ROM", some "CWR.INTACK",
      some "CRD.MUX", some "FSYNC", some "REFRESH", some "POWERON", none] := by decide

/-- A table word waiting as the next event is what the step runs, from reset. -/
theorem test_step_runs_table_word :
    after (step (State.reset.withFetchWord 16 0x7005)) (fun t => (t.vram, t.pending)) =
      some ([(5, 0x00)], []) := by decide +kernel

/-! ## The memory bus (V2) -/

theorem test_mrdRom : after (exec (.mrdRom 0x0005) board) (·.outputs) = some [.readResult 0x33] := by decide +kernel

theorem test_mwrRom_ignored : after (exec (.mwrRom 0x0005 0x99) board) (fun t => romByte t.cfg 5) = some 0x33 := by
  decide +kernel

theorem test_mrdVram : after (exec (.mrdVram 0x3005) board) (fun t => (t.outputs, t.dirtyAt 5)) =
    some ([.readResult 0x11], false) := by decide +kernel

theorem test_mwrVram : after (exec (.mwrVram 0x3005 0x99) board)
    (fun t => (t.vramByte 5, t.dirtyAt 5, t.aramByte 5, t.muxSel, t.intLine)) =
    some (0x99, true, 0x01, 2, .asserted) := by decide +kernel

/-- The same value marks the slot all the same; the last cell is slot 1023. -/
theorem test_mwrVram_last_cell : after (exec (.mwrVram 0x33FF 0x20) board)
    (fun t => (t.vramByte 1023, t.dirtyAt 1023, t.dirtyAt 1022, t.vramByte 5)) = some (0x20, true, false, 0x11) := by
  decide +kernel

theorem test_mrdWram : after (exec (.mrdWram 0x3405) board) (·.outputs) = some [.readResult 0x22] := by decide +kernel

theorem test_mwrWram_marks_nothing : after (exec (.mwrWram 0x3405 0x99) board)
    (fun t => (t.wramByte 5, t.dirtyAt 5)) = some (0x99, false) := by decide +kernel

theorem test_mrdAram : after (exec (.mrdAram 0x3805) board) (·.outputs) = some [.readResult 0x01] := by decide +kernel

/-- Bits 7:2 are kept, and only bits 1:0 are the bank. -/
theorem test_mwrAram : after (exec (.mwrAram 0x3805 0xFE) board)
    (fun t => (t.aramByte 5, t.bankOf 5, t.dirtyAt 5, t.vramByte 5)) = some (0xFE, 2, true, 0x11) := by decide +kernel

theorem test_mrdCrtc0_forwards : after (exec (.mrdCrtc0 0x3E00) board) (·.outputs) =
    some [.readResult (Config.crtcStatusRead Config.crtcInit).1] := rfl

theorem test_mwrCrtc0_forwards : after (exec (.mwrCrtc0 0x3E00 0x0C) board) (·.crtc) =
    some (Config.crtcAddressWrite 0x0C Config.crtcInit) := rfl

theorem test_mrdCrtc1_forwards : after (exec (.mrdCrtc1 0x3E01) board) (·.outputs) =
    some [.readResult (Config.crtcRegisterRead Config.crtcInit).1] := rfl

theorem test_mwrCrtc1_forwards : after (exec (.mwrCrtc1 0x3E01 0x10) board) (·.crtc) =
    some (Config.crtcRegisterWrite 0x10 Config.crtcInit) := rfl

/-- Two unmapped reads take two draws. -/
theorem test_mrdUnmapped_draws : after (runInstrs [.mrdUnmapped 0x3C05, .mrdUnmapped 0x3C05] board) (·.outputs) =
    some [.readResult (Config.drawByte 0), .readResult (Config.drawByte 1)] := rfl

theorem test_mwrUnmapped_ignored : after (exec (.mwrUnmapped 0x3C05 0x99) board)
    (fun t => (t.vram, t.aram, t.wram)) = some (board.vram, board.aram, board.wram) := by decide

/-! ## The CRU bus and the interrupt controller (V6, V7, V8, S4, S6) -/

theorem test_cwrIntack : after (exec .cwrIntack board) (fun t => (t.intLine, t.muxSel, t.outputs)) =
    some (.clear, 2, [.setInterruptLine 1 .clear]) := by decide

theorem test_strobes :
    [after (exec .cwrMux1 board) (fun t => (t.muxSel, t.intLine)), after (exec .cwrMux2 board) (fun t => (t.muxSel, t.intLine)),
      after (exec .cwrMux3 board) (fun t => (t.muxSel, t.intLine))] =
    [some (1, .asserted), some (2, .asserted), some (3, .asserted)] := by decide

theorem test_cwrOther_never_acknowledges : after (exec (.cwrOther 0x0CE2 0) board) (fun t => (t.intLine, t.muxSel)) =
    some (.asserted, 2) := by decide

/-- V7: 0xFF, A, B, C by the selection. -/
theorem test_crdMux :
    [0, 1, 2, 3].map (fun k => after (exec .crdMux { board with muxSel := k }) (·.outputs)) =
    [some [.readResult 0xFF], some [.readResult 0x5A], some [.readResult 0x0F], some [.readResult 0xC3]] := by decide

theorem test_crdOther_draws : after (exec (.crdOther 0x0CE2) board) (fun t => (t.intLine, t.draws)) =
    some (.asserted, 1) := by decide

theorem test_fsync : after (exec .fsync { board with intLine := .clear }) (fun t => (t.intLine, t.outputs)) =
    some (.asserted, [.setInterruptLine 1 .asserted]) := by decide

/-- V8: two frames, one acknowledge. -/
theorem test_fsync_merges : after (runInstrs [.fsync, .fsync, .cwrIntack] board) (·.intLine) = some .clear := by decide

/-! ## The renderer (V3, V4, V5) -/

theorem test_geometry_V3 : [0, 31, 32, 33, 341, 992, 1023].map (fun i => (slotRow i, slotCol i)) =
    [(0, 0), (0, 31), (1, 0), (1, 1), (10, 21), (31, 0), (31, 31)] := by decide

/-- V4: bank 2, code 0x41, rows 0 and 7. -/
theorem test_gfxDecode_V4 :
    [0, 1, 2, 3, 4, 5, 6, 7].map (fun x => (gfxDecode cfgT 2 0x41 0 x, gfxDecode cfgT 2 0x41 7 x)) =
    [(3, 5), (2, 1), (0, 5), (0, 1), (0, 7), (0, 3), (0, 7), (5, 3)] := by decide

/-- V5: slot 33 is drawn at lines 8 and 15 and its flag cleared. -/
theorem test_refresh_V5 : after (exec .refresh board)
    (fun t => ([8, 9, 15].map (t.pixel 8), [8, 14, 15].map (t.pixel 15), t.dirtyAt 33)) =
    some ([3, 2, 5], [5, 7, 3], false) := by decide +kernel

/-- V5: a bank change shows at the next refresh only. -/
theorem test_refresh_rebanks :
    (after (exec (.mwrAram 0x3821 0xFC) board) (fun t => after (exec .refresh t) (fun u => [8, 15].map (u.pixel 8)))) =
    some (some [1, 1]) := by decide +kernel

/-! ## Power (V9) -/

theorem test_poweron : after (exec .poweron { board with muxSel := 3 })
    (fun t => (t.muxSel, t.intLine, t.wramByte 5, t.dirtyAt 0)) = some (0, .clear, 0x22, true) := by decide +kernel

/-- Two reads of an unwritten cell agree (D21): both give the one value drawn at POWERON. -/
theorem test_poweron_draws :
    after (runInstrs [.poweron, .mrdVram 0x3000, .mrdVram 0x3000] board) (fun t => t.outputs.drop 1) =
      some [.readResult (Config.powerOnVram 1 0), .readResult (Config.powerOnVram 1 0)] := rfl

/-! ## Witnesses: the hypotheses of each statement are met -/

/-- One operation of every row, each well-formed on `board`. -/
def everyRow : List Instr :=
  [.mrdRom 0x2FFF, .mwrRom 0 1, .mrdVram 0x3000, .mwrVram 0x33FF 1, .mrdWram 0x3400, .mwrWram 0x37FF 1,
   .mrdAram 0x3800, .mwrAram 0x3BFF 1, .mrdCrtc0 0x3E00, .mwrCrtc0 0x3E00 1, .mrdCrtc1 0x3E01, .mwrCrtc1 0x3E01 1,
   .mrdUnmapped 0x3E02, .mwrUnmapped 0x3DFF 1, .cwrIntack, .cwrMux1, .cwrMux2, .cwrMux3, .cwrOther 0x1FFE 1, .crdMux,
   .crdOther 0x1FFE, .fsync, .refresh, .poweron]

theorem witness_DecodeOfEncodeIsTheOperation : cfgT.Valid ∧ everyRow.all (WellFormed cfgT) = true := by decide

theorem witness_EncodeOfDecodeIsTheWord :
    cfgRef.Valid ∧ decodeWord cfgRef ⟨.M, 0x7FFF, 7⟩ = .ok (.mwrUnmapped 0x3FFF 7) ∧
      decodeWord cfgRef ⟨.CW, 0x3FFD, 0⟩ = .ok (.cwrOther 0x1FFE 1) := by decide

theorem witness_OpcodeTableNamesTheDecodedOperation :
    decodeWord cfgRef ⟨.M, 0x2FFF, 0⟩ = .ok (.mrdRom 0x2FFF) ∧ tableSelect .M 0x2FFF = some "MRD.ROM" ∧
      tableSelect .M 0x3DFF = some "MRD.UNMAPPED" ∧ tableSelect .CW 0x19C5 = some "CWR.INTACK" := by decide

theorem witness_EveryTransactionSelectsARow :
    [Event.memRead 0xFFFF, .memWrite 0 0, .cruWrite 0x1FFE 1, .cruRead 0, .trigger 2].all (Event.legal cfgRef) = true := by
  decide

theorem witness_RegionIsTheRangeThatHoldsTheAddress : cfgT.Valid := by decide

theorem witness_AddressWindowRepeats :
    0xB821 < 2 ^ cfgRef.rawAw ∧ 0x3821 < 2 ^ cfgRef.rawAw ∧ 0xB821 % 2 ^ cfgRef.aw = 0x3821 % 2 ^ cfgRef.aw := by decide

theorem witness_CruWriteSelectsByExactMatch :
    [intackAddr, mux1Addr, mux2Addr, mux3Addr, 0, 0x1FFE].all (fun b => !oddAddr b) = true := by decide

/-- The witness state of the statements about steps: reset with a memory write waiting. -/
def waiting : State := State.reset.withFetchWord 16 0x73FF

theorem witness_StepRunsTheDecodedOperation :
    decode waiting.cfg waiting.nextStimulus.event = .ok (.mwrVram 0x33FF 0) ∧ waiting.pending ≠ [] := by decide

/-- The other clause of the same statement: nothing waits, and the free event is one that decodes. -/
theorem witness_StepRunsTheDecodedOperation_free : State.reset.pending = [] ∧ Safe State.reset :=
  ⟨rfl, Event.legal_legalise _ _⟩

theorem witness_OddCruAddressIsRefused : oddAddr 0x0CE3 = true ∧ oddAddr 0x1FFF = true ∧ oddAddr 1 = true := by decide

theorem witness_EveryTransactionIsAccepted : Safe waiting ∧ State.reset.pending = [] := by decide

theorem witness_OperationCompletesExactlyWhenWellFormed :
    everyRow.all (fun i => (after (exec i board) fun _ => true).getD false) = true ∧
      refusal (exec (.mrdVram 0x3400) board) = some .operandOfAnotherRow := by decide

theorem witness_EveryStepKeepsTheInvariant : Inv waiting ∧ ∃ t, step waiting = .next t := by
  refine ⟨⟨by decide, by decide, fun i hi => Or.inl ?_⟩, ⟨_, rfl⟩⟩
  simp [State.dirtyAt, waiting, State.withFetchWord, State.reset, hi]

theorem witness_NoStepChangesTheConfiguration : ∃ t, step waiting = .next t := ⟨_, rfl⟩

theorem witness_memory_rows :
    ([0x0000, 0x2FFF].all (selects cfgT .rom) && [0x3000, 0x33FF].all (selects cfgT .vram) &&
      [0x3400, 0x37FF].all (selects cfgT .wram) && [0x3800, 0x3BFF].all (selects cfgT .aram) &&
      [0x3E00].all (selects cfgT .crtc0) && [0x3E01].all (selects cfgT .crtc1) &&
      [0x3C00, 0x3DFF, 0x3E02, 0x3FFF].all (selects cfgT .unmapped)) = true := by decide

theorem witness_IgnoredWritesChangeNothing :
    selects board.cfg .rom 0x2FFF = true ∧ oddAddr 0x0CE2 = false ∧
      ¬((0 : BitVec 1) = 1 ∧ ((0x0CE2 : CruAddr) = 0x0CE2 ∨ (0x0CE2 : CruAddr) = 0x0CC2 ∨ (0x0CE2 : CruAddr) = 0x0CC4 ∨
        (0x0CE2 : CruAddr) = 0x0CC6)) := by decide

theorem witness_UnknownReadsAreFreshDraws :
    selects board.cfg .unmapped 0x3C00 = true ∧ oddAddr 0x0C82 = false ∧ (0x0C82 : CruAddr) ≠ board.cfg.muxReadAddr := by
  decide

theorem witness_BytesChangeOnlyWhereStored :
    (∃ t, exec (.mwrVram 0x33FF 1) board = .next t) ∧ (∃ t, exec .poweron board = .next t) ∧
      storeAddress (.mwrVram 0x33FF 1) ≠ some 0x3400 ∧ region board.cfg 0x3400 = .wram ∧ region board.cfg 0x2FFF = .rom :=
  ⟨⟨_, rfl⟩, ⟨_, rfl⟩, by decide, by decide, by decide⟩

theorem witness_ReadAfterWriteReturnsTheByte :
    (∃ t u, exec (.mwrVram 0x3000 7) board = .next t ∧ runInstrs [.mwrVram 0x3001 8, .refresh] t = .next u) ∧
      (∃ t u, exec (.mwrAram 0x3BFF 7) board = .next t ∧ runInstrs [.mwrVram 0x33FF 8] t = .next u) ∧
      (∃ t u, exec (.mwrWram 0x3400 0x7E) board = .next t ∧ runInstrs [.poweron] t = .next u) ∧
      storeAddress (.mwrVram 0x3001 8) ≠ some 0x3000 ∧ Instr.poweron ∉ [Instr.mwrVram 0x3001 8, .refresh] :=
  ⟨⟨_, _, rfl, rfl⟩, ⟨_, _, rfl, rfl⟩, ⟨_, _, rfl, rfl⟩, by decide, by decide⟩

/-- Every statement of the form "if exec answers next t" over all operations: each row answers one. -/
theorem witness_exec_answers_next : everyRow.all (fun i => (after (exec i board) fun _ => true).getD false) = true := by
  decide

theorem witness_runs : (after (runInstrs everyRow board) fun t => (t.muxSel, t.intLine)) = some (0, .clear) := by decide

theorem witness_SlotsOwnDisjointPixels : (1023 < 1024) ∧ slotOfPixel 255 255 = 1023 ∧ slotOfPixel 8 15 = 33 := by decide

theorem witness_Coherent : Coherent waiting := fun i hi => Or.inl (by
  simp [State.dirtyAt, waiting, State.withFetchWord, State.reset, hi])

/-- `board` and a board that differs in bits 7:2 of an attribute cell, the selection, the line, working memory and ROM. -/
theorem witness_PictureDependsOnTheTilesOnly :
    let t : State := { board with aram := [(5, 0xFD), (33, 0x02)], muxSel := 0, intLine := .clear, wram := [] }
    board.cfg.gfx = t.cfg.gfx ∧
      (∀ i, i < 1024 → board.vramByte i = t.vramByte i ∧ board.dirtyAt i = t.dirtyAt i ∧
        ∀ k, k < 2 → (board.aramByte i).getLsbD k = (t.aramByte i).getLsbD k) ∧
      ∀ py px, board.pixel py px = t.pixel py px := by
  refine ⟨rfl, fun i _ => ⟨rfl, rfl, fun k hk => ?_⟩, fun _ _ => rfl⟩
  by_cases h5 : 5 = i
  · subst h5
    have : k = 0 ∨ k = 1 := by omega
    rcases this with rfl | rfl <;> decide
  · simp [State.aramByte, board, Memory.read, h5, State.reset]

theorem witness_LayoutTakesOneBitFromEachPlane : cfgT.gfx = .layout 0x2000 0x0800 gfxT ∧ 2 < 3 ∧ 0 < 3 := by decide

/-- An acknowledge from either level, and an operation that takes the line from asserted to clear. -/
theorem witness_AcknowledgeClearsTheLine :
    State.reset.intLine = .clear ∧ board.intLine = .asserted ∧
      ∃ t, exec .cwrIntack board = .next t ∧ t.intLine = .clear := ⟨rfl, rfl, _, rfl, rfl⟩

/-- A state with a selection of each strobe. -/
theorem witness_StrobesSelectThePort :
    [1, 2, 3].map (fun k => ({ board with muxSel := k } : State).muxSel) = [1, 2, 3] := by decide

theorem witness_MultiplexedRead : [0, 1, 2, 3].map (fun k => ({ board with muxSel := k } : State).readMuxInput) =
    [0xFF, 0x5A, 0x0F, 0xC3] := by decide

end Sys2Proof.Tests
end

section
/-!
O6, the memory map (spec/20_memory.md R32). `region` answers the position of the first of the six ranges that holds the
address; R8 makes the ranges disjoint, so "the first that holds it" and "the one that holds it" are the same.
-/

namespace Sys2Proof

/-- The range, a (first, last) pair, holds the address. -/
def rangeHolds (a : Nat) (r : Nat × Nat) : Bool := decide (r.1 ≤ a ∧ a ≤ r.2)

@[simp] theorem rangeHolds_iff {a : Nat} {r : Nat × Nat} : rangeHolds a r = true ↔ r.1 ≤ a ∧ a ≤ r.2 :=
  decide_eq_true_iff

theorem not_rangeHolds_of_disjoint {a : Nat} {r q : Nat × Nat} (h : disjointRanges r q)
    (hq : rangeHolds a q = true) : rangeHolds a r = false := by
  simp only [← Bool.not_eq_true, rangeHolds_iff] at hq ⊢
  omega

/-- Among disjoint ranges the first one that holds an address is any one that holds it. -/
theorem findIdx_rangeHolds_eq_iff {rs : List (Nat × Nat)} (h : rs.Pairwise disjointRanges) {a i : Nat}
    (hi : i < rs.length) : rs.findIdx (rangeHolds a) = i ↔ rs[i].1 ≤ a ∧ a ≤ rs[i].2 := by
  rw [List.findIdx_eq hi, rangeHolds_iff, and_iff_left_iff_imp]
  intro hold j hji
  exact not_rangeHolds_of_disjoint (List.pairwise_iff_getElem.1 h j i _ hi hji) (rangeHolds_iff.2 hold)

/-- No range holds the address exactly when the search runs off the end of the list. -/
theorem findIdx_rangeHolds_eq_length_iff {rs : List (Nat × Nat)} {a : Nat} :
    rs.findIdx (rangeHolds a) = rs.length ↔ ∀ r ∈ rs, ¬(r.1 ≤ a ∧ a ≤ r.2) := by
  simp only [List.findIdx_eq_length, ← Bool.not_eq_true, rangeHolds_iff]

/-- `Region` lists the classes in the order of `Cfg.ranges`, with `unmapped` after the last. -/
theorem region_ctorIdx (cfg : Cfg) (a : Nat) :
    (region cfg a).ctorIdx = cfg.ranges.findIdx (rangeHolds a) := by
  unfold region
  split_ifs <;> simp [Cfg.ranges, rangeHolds, List.findIdx_cons, Region.ctorIdx, *]

theorem region_eq_iff_findIdx {cfg : Cfg} {a : Nat} {r : Region} :
    region cfg a = r ↔ cfg.ranges.findIdx (rangeHolds a) = r.ctorIdx := by
  rw [← region_ctorIdx]
  exact (Function.LeftInverse.injective Region.ofNat_ctorIdx).eq_iff.symm

/-- An address has the class at a position of `Cfg.ranges` exactly when the range there holds it. -/
theorem region_eq_iff_range {cfg : Cfg} (hv : cfg.Valid) (a : Nat) {r : Region} (hr : r.ctorIdx < cfg.ranges.length) :
    region cfg a = r ↔ cfg.ranges[r.ctorIdx].1 ≤ a ∧ a ≤ cfg.ranges[r.ctorIdx].2 := by
  obtain ⟨_, _, _, disjoint, _⟩ := hv
  exact region_eq_iff_findIdx.trans (findIdx_rangeHolds_eq_iff disjoint hr)

/-- An address is unmapped exactly when no range holds it, whatever the configuration. -/
theorem region_unmapped_iff {cfg : Cfg} {a : Nat} :
    region cfg a = .unmapped ↔ ∀ r ∈ cfg.ranges, ¬(r.1 ≤ a ∧ a ≤ r.2) :=
  region_eq_iff_findIdx.trans findIdx_rangeHolds_eq_length_iff

/-- Settles O6: the first range that holds an address is the only one, since the ranges are disjoint (R8). -/
theorem regionIsTheRangeThatHoldsTheAddress : Obligations.RegionIsTheRangeThatHoldsTheAddress := by
  intro cfg hv a
  have mapped {r : Region} (hr : r.ctorIdx < 6) := region_eq_iff_range hv a (r := r) hr
  exact ⟨mapped (r := .rom) (by decide), mapped (r := .vram) (by decide), mapped (r := .wram) (by decide),
    mapped (r := .aram) (by decide), mapped (r := .crtc0) (by decide), mapped (r := .crtc1) (by decide),
    region_unmapped_iff⟩

end Sys2Proof
end

section
/-!
The memory rows ROM, VRAM and WRAM and the ignored writes (spec/40_address_decoder.md R70 to R75, spec/42_cru_io.md R125).
What a store does is said once by address: the byte a CPU reads there is the byte stored, and no other address of the map
reads differently, since each cell answers at one address (R34, R41).
-/

namespace Sys2Proof

theorem otherCruWrite_iff {b : CruAddr} {value : BitVec 1} :
    otherCruWrite b value = true ↔ oddAddr b = false ∧
      ¬(value = 1 ∧ (b = intackAddr ∨ b = mux1Addr ∨ b = mux2Addr ∨ b = mux3Addr)) := by
  simp only [otherCruWrite, Bool.and_eq_true, Bool.not_eq_true', ← namedCruWrite_iff, Bool.not_eq_true]

namespace Machine

/-! ## Cells and bytes by address -/

/-- Two addresses from `lo` on have two cells (R34). -/
theorem cellIndex_ne {lo a a' : Nat} (h : lo ≤ a) (h' : lo ≤ a') (hne : a' ≠ a) : cellIndex lo a ≠ cellIndex lo a' := by
  unfold cellIndex
  omega

theorem cellIndex_vram_lt {cfg : Cfg} {a : Nat} (h : region cfg a = .vram) : cellIndex cfg.vramLo a < 1024 := by
  have := region_vram h
  unfold cellIndex
  omega

/-- The byte at an address depends on the configuration and on the one cell that answers there. -/
theorem State.busByte_congr {s t : State} {a : Nat} (hc : t.cfg = s.cfg)
    (hv : region s.cfg a = .vram → t.vramByte (cellIndex s.cfg.vramLo a) = s.vramByte (cellIndex s.cfg.vramLo a))
    (hw : region s.cfg a = .wram → t.wramByte (cellIndex s.cfg.wramLo a) = s.wramByte (cellIndex s.cfg.wramLo a))
    (ha : region s.cfg a = .aram → t.aramByte (cellIndex s.cfg.aramLo a) = s.aramByte (cellIndex s.cfg.aramLo a)) :
    t.busByte a = s.busByte a := by
  cases hr : region s.cfg a <;> simp [State.busByte, hc, hr, hv, hw, ha]

/-- A store into video memory changes the byte at the stored address and at no other. -/
theorem State.setVram_busByte {s : State} {a : Nat} (h : region s.cfg a = .vram) (v : Byte) (a' : Nat) :
    (s.setVram (cellIndex s.cfg.vramLo a) v).busByte a' = if a' = a then some v else s.busByte a' := by
  split
  · subst a'
    simp [State.busByte, h]
  · rename_i hne
    refine State.busByte_congr rfl (fun h' => ?_) (fun _ => rfl) (fun _ => rfl)
    rw [State.setVram_vramByte, if_neg (cellIndex_ne (region_vram h).1 (region_vram h').1 hne)]

/-- A store into working memory changes the byte at the stored address and at no other. -/
theorem State.setWram_busByte {s : State} {a : Nat} (h : region s.cfg a = .wram) (v : Byte) (a' : Nat) :
    (s.setWram (cellIndex s.cfg.wramLo a) v).busByte a' = if a' = a then some v else s.busByte a' := by
  split
  · subst a'
    simp [State.busByte, h]
  · rename_i hne
    refine State.busByte_congr rfl (fun _ => rfl) (fun h' => ?_) (fun _ => rfl)
    rw [State.setWram_wramByte, if_neg (cellIndex_ne (region_wram h).1 (region_wram h').1 hne)]

@[simp] theorem State.invalidate_busByte (s : State) (i a : Nat) : (s.invalidate i).busByte a = s.busByte a := rfl

/-- A read of the working range returns its cell's byte, in every state (R74). -/
theorem exec_mrdWram {s : State} {a : Nat} (h : selects s.cfg .wram a = true) :
    exec (.mrdWram a) s = .next (s.respond (s.wramByte (cellIndex s.cfg.wramLo a))) := exec_of_wellFormed h

/-- A power cycle keeps working memory (R160). -/
theorem effect_poweron_wramByte (s : State) (j : Nat) : (effect s .poweron).wramByte j = s.wramByte j := by
  simp [effect]

/-! ## The stores -/

/-- Settles O19: the row's effect is the store and the flag of the same cell; no other address has that cell. -/
theorem videoWriteStoresAndInvalidates : Obligations.VideoWriteStoresAndInvalidates := by
  intro s a v h
  have hr : region s.cfg a = .vram := (selects_iff.1 h).2
  have hslot : cellIndex s.cfg.vramLo a < 1024 := cellIndex_vram_lt hr
  have hbus := State.setVram_busByte hr v
  refine ⟨_, exec_of_wellFormed h, ?_⟩
  simp only [effect]
  refine ⟨by simp [cellIndex], ?flag, fun j hj => by simp [cellIndex, hj.symm], rfl, by simp [hbus],
    fun a' hne => by simp [hbus, hne]⟩
  case flag => exact (State.invalidate_dirtyAt ..).trans (if_pos ⟨rfl, hslot⟩)

/-- Settles O21: the row's effect is the store alone; no other address has the stored cell. -/
theorem workingWriteStoresOnly : Obligations.WorkingWriteStoresOnly := by
  intro s a v h
  have hbus := State.setWram_busByte (selects_iff.1 h).2 v
  refine ⟨_, exec_of_wellFormed h, ?_⟩
  simp only [effect]
  exact ⟨by simp [cellIndex], fun j hj => by simp [cellIndex, hj.symm], rfl, by simp [hbus],
    fun a' hne => by simp [hbus, hne]⟩

/-! ## The reads and the ignored writes -/

/-- Settles O16: the address selects the row, whose effect is to return the ROM byte. -/
theorem romReadReturnsTheRomByte : Obligations.RomReadReturnsTheRomByte :=
  fun _ _ h => exec_of_wellFormed h

/-- Settles O17: each row's operands are its own, and its effect is the state it found. -/
theorem ignoredWritesChangeNothing : Obligations.IgnoredWritesChangeNothing :=
  ⟨fun _ _ _ h => exec_of_wellFormed h,
    fun _ _ _ even other => exec_of_wellFormed (otherCruWrite_iff.2 ⟨even, other⟩)⟩

/-- Settles O18: the address selects the row, whose effect is to return the stored byte. -/
theorem videoReadReturnsTheStoredByte : Obligations.VideoReadReturnsTheStoredByte :=
  fun _ _ h => exec_of_wellFormed h

/-- Settles O20: the read returns the cell's byte in any state, and a power cycle keeps the cell and the map. -/
theorem workingReadReturnsTheStoredByte : Obligations.WorkingReadReturnsTheStoredByte := by
  intro s a h
  refine ⟨exec_mrdWram h, effect s .poweron, exec_of_wellFormed rfl, ?_⟩
  rw [exec_mrdWram (by rwa [effect_cfg]), effect_poweron_wramByte, effect_cfg]
  rfl

end Machine

end Sys2Proof
end

section
/-!
The tile renderer (spec/41_tile_renderer.md R100 to R103, R106, R108, R110). A picture is compared slot by slot, since the
slots own disjoint pixels that cover it. What an operation other than REFRESH and POWERON can do to a slot is said once: it
sets the slot's flag, or leaves the flag and both cells.
-/

namespace Sys2Proof.Machine

/-! ## Slots and tiles -/

theorem slot_row_col (i : Nat) : i = slotRow i * 32 + slotCol i := by
  rw [slotRow_eq, slotCol_eq]
  omega

theorem slot_row_col_lt {i : Nat} (hi : i < 1024) : slotRow i < 32 ∧ slotCol i < 32 := by
  rw [slotRow_eq, slotCol_eq]
  omega

/-- A pixel lies in the block of the slot `slotOfPixel` names and in no other (R101, R106). -/
theorem mem_slot_block_iff {py px : Nat} (hx : px < 256) (i : Nat) :
    (∃ y x : BitVec 3, py = slotRow i * 8 + y.toNat ∧ px = slotCol i * 8 + x.toNat) ↔ slotOfPixel py px = i := by
  constructor
  · rintro ⟨y, x, rfl, rfl⟩
    exact slotOfPixel_slot i y x
  · rintro rfl
    exact ⟨tileLine py, tileLine px, pixel_of_slot hx⟩

/-- The decode reads the configuration's graphics source and nothing else of it (R104, R105). -/
theorem gfxDecode_congr {c d : Cfg} (h : c.gfx = d.gfx) (bank : BitVec 2) (code : Byte) (y x : BitVec 3) :
    gfxDecode c bank code y x = gfxDecode d bank code y x := by
  simp only [gfxDecode, h]

/-- The bank is `aram[i][1:0]` and nothing else of the cell (R103). -/
theorem State.bankOf_congr {s t : State} {i : Nat}
    (h : ∀ k, k < 2 → (s.aramByte i).getLsbD k = (t.aramByte i).getLsbD k) : s.bankOf i = t.bankOf i := by
  apply BitVec.eq_of_getLsbD_eq
  intro k hk
  simp [State.bankOf, h k hk]

/-! ## REFRESH -/

theorem exec_refresh (s : State) : exec .refresh s = .next s.redraw.cleanAll := rfl

/-- A coherent picture shows every slot once refreshed: the dirty slots are drawn, the others showed theirs (R108). -/
theorem Coherent.showsSlot_refresh {s : State} (hs : Coherent s) {i : Nat} (hi : i < 1024) :
    ShowsSlot s.redraw.cleanAll i := by
  intro y x
  change s.redraw.pixel _ _ = s.tilePixel i y x
  rw [State.redraw_pixel_slot s hi]
  split
  · rfl
  · rename_i clean
    exact (hs i hi).resolve_left clean y x

/-- Two states whose slots have the same flags, tiles and old pixels refresh to one picture. -/
theorem State.redraw_fb_congr {s t : State} (hd : ∀ i, i < 1024 → s.dirtyAt i = t.dirtyAt i)
    (ht : ∀ i, i < 1024 → ∀ y x, s.tilePixel i y x = t.tilePixel i y x)
    (hp : ∀ py px, s.pixel py px = t.pixel py px) : s.redraw.fb = t.redraw.fb := by
  apply fb_ext_slots
  intro i hi y x
  rw [State.redraw_pixel_slot s hi, State.redraw_pixel_slot t hi, hd i hi, ht i hi, hp]

/-! ## What the operations do to the picture, the flags and the slots -/

/-- Only REFRESH and a power cycle change the frame buffer (R108). -/
theorem effect_fb {i : Instr} (hr : i ≠ .refresh) (hp : i ≠ .poweron) (s : State) : (effect s i).fb = s.fb := by
  cases i with
  | refresh => exact absurd rfl hr
  | poweron => exact absurd rfl hp
  | _ => rfl

/-- `Invalidate(i)` sets the flag of slot `i` and keeps those of the other slots. -/
theorem State.invalidate_dirtyAt_slot (s : State) (i : Nat) {j : Nat} (hj : j < 1024) :
    (s.invalidate i).dirtyAt j = (s.dirtyAt j || decide (j = i)) := by
  rw [State.invalidate_dirtyAt]
  by_cases h : j = i
  · subst h
    simp [hj]
  · simp [h, Ne.symm h]

/-- To slot `j`, an operation other than REFRESH and a power cycle does one of two things: it sets the flag, or it leaves
the flag and both cells. -/
theorem effect_slot {i : Instr} (hr : i ≠ .refresh) (hp : i ≠ .poweron) (s : State) {j : Nat} (hj : j < 1024) :
    (effect s i).dirtyAt j = true ∨
      (effect s i).dirtyAt j = s.dirtyAt j ∧ (effect s i).vramByte j = s.vramByte j ∧
        (effect s i).aramByte j = s.aramByte j := by
  cases i with
  | refresh => exact absurd rfl hr
  | poweron => exact absurd rfl hp
  | mwrVram a v =>
    simp only [effect, State.invalidate_dirtyAt_slot _ _ hj]
    by_cases h : j = cellIndex s.cfg.vramLo a
    · simp [h]
    · simp [h, Ne.symm h]
  | mwrAram a v =>
    simp only [effect, State.invalidate_dirtyAt_slot _ _ hj]
    by_cases h : j = cellIndex s.cfg.aramLo a
    · simp [h]
    · simp [h, Ne.symm h]
  | _ => exact .inr ⟨rfl, rfl, rfl⟩

/-- Every operation keeps the picture coherent: only slots whose flag is set may be stale (R108). -/
theorem effect_coherent {s : State} (hs : Coherent s) (i : Instr) : Coherent (effect s i) := by
  intro j hj
  by_cases hr : i = .refresh
  · subst hr
    exact .inr (hs.showsSlot_refresh hj)
  by_cases hp : i = .poweron
  · subst hp
    exact .inl (s.powerCycle_dirtyAt j hj)
  obtain dirty | ⟨flag, vram, aram⟩ := effect_slot hr hp s hj
  · exact .inl dirty
  · rw [flag]
    exact (hs j hj).imp_right (ShowsSlot.congr (effect_cfg s i) vram aram (effect_fb hr hp s))

/-! ## The statements -/

/-- Settles O37: the block membership is decided by `slotOfPixel`, and a tile reads its slot's two cells only. -/
theorem slotsOwnDisjointPixels : Obligations.SlotsOwnDisjointPixels :=
  ⟨fun i hi => ⟨rfl, rfl, slot_row_col i, slot_row_col_lt hi⟩,
    fun _ _ _ hc hv ha => State.tilePixel_congr hc hv ha,
    fun _ _ _ hx i _ => mem_slot_block_iff hx i⟩

/-- Settles O38: each slot's pixels after the redraw, which leaves every field but the picture and the flags. -/
theorem refreshDrawsTheDirtySlots : Obligations.RefreshDrawsTheDirtySlots := by
  intro s
  refine ⟨_, exec_refresh s, fun i hi y x => ?_, s.redraw.cleanAll_dirtyAt, rfl⟩
  obtain ⟨hy, hx⟩ := slotPixel_lt hi y x
  exact ⟨Nat.le_of_lt_succ hy, Nat.le_of_lt_succ hx, s.redraw_pixel_slot hi y x⟩

/-- Settles O40: coherence is an invariant of every operation, and at a REFRESH it leaves no slot stale. -/
theorem pictureReflectsMemoryAfterRefresh : Obligations.PictureReflectsMemoryAfterRefresh := by
  refine ⟨fun s hs => ⟨_, exec_refresh s, fun i hi => ⟨hs.showsSlot_refresh hi, s.redraw.cleanAll_dirtyAt i⟩⟩, ?_, ?_⟩
  · intro i s t h hr hp
    obtain ⟨-, rfl⟩ := exec_next h
    exact effect_fb hr hp s
  · intro i s t h hs
    obtain ⟨-, rfl⟩ := exec_next h
    exact effect_coherent hs i

/-- Settles O42: the two states have the same tile in every slot, since a tile reads the decode, the video cell and the
bank only; so they refresh to one picture. -/
theorem pictureDependsOnTheTilesOnly : Obligations.PictureDependsOnTheTilesOnly := by
  intro s t hg hslots hp
  have tile : ∀ i, i < 1024 → ∀ y x, s.tilePixel i y x = t.tilePixel i y x := by
    intro i hi y x
    obtain ⟨hv, -, ha⟩ := hslots i hi
    rw [State.tilePixel, State.tilePixel, gfxDecode_congr hg, State.bankOf_congr ha, hv]
  have flag : ∀ i, i < 1024 → s.dirtyAt i = t.dirtyAt i := fun i hi => have ⟨_, hd, _⟩ := hslots i hi; hd
  exact ⟨_, _, exec_refresh s, exec_refresh t, State.pixel_congr (State.redraw_fb_congr flag tile hp)⟩

/-- Settles O43: the two stores that invalidate set their own slot's flag, REFRESH clears all, and every other row leaves
the flags; no storing operation is a REFRESH or a power cycle. -/
theorem dirtyFlagsHaveNoOtherWriter : Obligations.DirtyFlagsHaveNoOtherWriter := by
  intro i s t h hp j hj
  obtain ⟨-, rfl⟩ := exec_next h
  refine ⟨?flags, fun stores => effect_fb (fun hr => ?notRefresh) hp s⟩
  case notRefresh =>
    subst hr
    exact stores rfl
  case flags =>
    cases i with
    | mwrVram a v => exact State.invalidate_dirtyAt_slot _ _ hj
    | mwrAram a v => exact State.invalidate_dirtyAt_slot _ _ hj
    | refresh => exact s.redraw.cleanAll_dirtyAt j
    | poweron => exact absurd rfl hp
    | _ => rfl

end Sys2Proof.Machine
end

section
/-!
The CRU rows and the two bits of state they act on (spec/42_cru_io.md R121 to R129): the interrupt line and the port
selector. What an operation does to the line is said once, through `lineOf`.
-/

namespace Sys2Proof.Machine

/-! ## Value 0 at an even address -/

/-- A CRU write of value 0 matches no named row, so at an even address it is the ignored write (R120, R125). -/
theorem exec_cwrOther_zero {b : CruAddr} (even : oddAddr b = false) (s : State) :
    exec (.cwrOther b 0) s = .next s := by
  have zero_ne_one : (0 : BitVec 1) ≠ 1 := by decide
  exact exec_of_wellFormed (otherCruWrite_iff.2 ⟨even, fun ⟨named, _⟩ => zero_ne_one named⟩)

/-! ## The interrupt line -/

theorem exec_cwrIntack (s : State) : exec .cwrIntack s = .next (s.driveLine .clear) := rfl

/-- Driving the line changes the line and the outputs only (R143). -/
theorem State.driveLine_frame (s : State) (l : Line) :
    { s.driveLine l with intLine := s.intLine, outputs := s.outputs } = s := rfl

/-- Driving the line to the level it has changes the outputs only. -/
theorem State.driveLine_frame_of_intLine {s : State} {l : Line} (h : s.intLine = l) :
    { s.driveLine l with outputs := s.outputs } = s := by
  subst h
  rfl

/-- An operation leaves the line at the level it drives it to, or as it was where it drives none (R145). -/
theorem effect_intLine (s : State) (i : Instr) : (effect s i).intLine = (lineOf i).getD s.intLine := by
  cases i <;> rfl

/-- Only the acknowledge and a power cycle drive the line clear (R121). -/
theorem lineOf_eq_clear_iff {i : Instr} : lineOf i = some .clear ↔ i = .cwrIntack ∨ i = .poweron := by
  cases i <;> simp [lineOf]

/-- An operation that takes the line from asserted to clear drives it clear. -/
theorem lineOf_of_clears {i : Instr} {s : State} (before : s.intLine = .asserted)
    (after : (effect s i).intLine = .clear) : lineOf i = some .clear := by
  rw [effect_intLine, before] at after
  cases hl : lineOf i with
  | none => simp [hl] at after
  | some l => simpa [hl] using after

/-- Settles O29: the row's effect is to drive the line clear, and no other row but POWERON does. -/
theorem acknowledgeClearsTheLine : Obligations.AcknowledgeClearsTheLine := by
  refine ⟨fun s => ⟨_, exec_cwrIntack s, rfl, rfl, s.driveLine_frame .clear, State.driveLine_frame_of_intLine,
    exec_cwrOther_zero (by decide) s⟩, ?onlyClearer⟩
  case onlyClearer =>
    intro i s t h hp before after
    obtain ⟨-, rfl⟩ := exec_next h
    exact (lineOf_eq_clear_iff.1 (lineOf_of_clears before after)).resolve_right hp

/-! ## The port selector -/

/-- Selecting the port that is selected changes nothing (R122 to R124). -/
theorem State.setMux_of_muxSel {s : State} {k : BitVec 2} (h : s.muxSel = k) : s.setMux k = s := by
  subst h
  rfl

/-- Settles O30: each strobe is one `setMux`, which overwrites the selection and is idempotent. -/
theorem strobesSelectThePort : Obligations.StrobesSelectThePort := by
  intro s
  have again {k : BitVec 2} (h : s.muxSel = k) : Host.Outcome.next (s.setMux k) = (.next s : Result) :=
    congrArg _ (State.setMux_of_muxSel h)
  exact ⟨rfl, rfl, rfl, rfl, again, again, again,
    exec_cwrOther_zero (by decide) s, exec_cwrOther_zero (by decide) s, exec_cwrOther_zero (by decide) s⟩

/-- With no port selected all bits are set (R129). -/
theorem State.readMuxInput_none {s : State} (h : s.muxSel = 0) : s.readMuxInput = 0xFF := by
  simp [State.readMuxInput, h]

theorem State.readMuxInput_portA {s : State} (h : s.muxSel = 1) : s.readMuxInput = s.ports.a := by
  simp [State.readMuxInput, h]

theorem State.readMuxInput_portB {s : State} (h : s.muxSel = 2) : s.readMuxInput = s.ports.b := by
  simp [State.readMuxInput, h]

theorem State.readMuxInput_portC {s : State} (h : s.muxSel = 3) : s.readMuxInput = s.ports.c := by
  simp [State.readMuxInput, h]

/-- Settles O31: the row returns `ReadMuxInput()`, which R129 gives for each value of the selector. -/
theorem multiplexedReadReturnsTheSelectedPort : Obligations.MultiplexedReadReturnsTheSelectedPort :=
  fun s => ⟨s.readMuxInput, rfl, State.readMuxInput_none, State.readMuxInput_portA, State.readMuxInput_portB,
    State.readMuxInput_portC⟩

end Sys2Proof.Machine
end

section
/-!
The frame-sync trigger (spec/60_exceptions.md R144): FSYNC drives the interrupt line asserted whatever level it has, so
frames that are not acknowledged merge.
-/

namespace Sys2Proof.Machine

theorem exec_fsync (s : State) : exec .fsync s = .next (s.driveLine .asserted) := rfl

/-- Settles O33: FSYNC drives the line asserted, so the second one drives it to the level it has, which changes the outputs
only; the acknowledge drives it clear. -/
theorem frameSyncAssertsTheLine : Obligations.FrameSyncAssertsTheLine := by
  intro s
  have asserted : (s.driveLine .asserted).intLine = .asserted := s.driveLine_intLine .asserted
  have merges := State.driveLine_frame_of_intLine asserted
  exact ⟨_, _, _, exec_fsync s, asserted, s.driveLine_outputs .asserted, s.driveLine_frame .asserted,
    exec_fsync _, merges, exec_cwrIntack _, State.driveLine_intLine _ .clear⟩

end Sys2Proof.Machine
end

section
/-!
Decoding and encoding (spec/30_encoding.md). The word of an event and the decoder's reading of a word are each said once;
the round trips, the opcode table and the totality of decoding follow from them.
-/

namespace Sys2Proof

/-! ## The words, read by the decoder -/

/-- A masked address presented as a raw one is its own masked address. -/
theorem maskAddr_of_le {cfg : Cfg} {a : Nat} (h : a ≤ cfg.addrMask) : maskAddr cfg a = a := by
  have := Nat.two_pow_pos cfg.aw
  rw [maskAddr_eq_mod, Nat.mod_eq_of_lt]
  unfold Cfg.addrMask at h
  omega

theorem decodeWord_of_fits {cfg : Cfg} {t : TxWord} (h : t.word < 2 ^ formatWidth cfg t.format) :
    decodeWord cfg t = decode cfg (wordFields cfg t) := by
  simp only [decodeWord, wordEvent, if_pos h]

theorem decodeWord_memReadWord {cfg : Cfg} (hv : cfg.Valid) {r : Region} {a : Nat} (h : selects cfg r a = true) :
    decodeWord cfg (memReadWord a) = .ok (decodeMemRead cfg a) := by
  obtain ⟨haw, -⟩ := hv
  have ha := Laws.addr_lt_of_selects h
  have hraw : a < 2 ^ cfg.rawAw := ha.trans_le (Nat.pow_le_pow_right two_pos haw)
  rw [decodeWord_of_fits (Laws.memReadWord_fits h)]
  simp [wordFields, memReadWord, decode, Nat.div_eq_of_lt ha, Nat.mod_eq_of_lt ha, hraw,
    maskAddr_of_le (selects_iff.1 h).1]

theorem decodeWord_memWriteWord {cfg : Cfg} (hv : cfg.Valid) {r : Region} {a : Nat} (v : Byte)
    (h : selects cfg r a = true) : decodeWord cfg (memWriteWord cfg a v) = .ok (decodeMemWrite cfg a v) := by
  obtain ⟨haw, -⟩ := hv
  have ha := Laws.addr_lt_of_selects h
  have hraw : a < 2 ^ cfg.rawAw := ha.trans_le (Nat.pow_le_pow_right two_pos haw)
  rw [decodeWord_of_fits (Laws.memWriteWord_fits v h)]
  simp [wordFields, memWriteWord, decode, Nat.mod_eq_of_lt ha, hraw, maskAddr_of_le (selects_iff.1 h).1]

theorem wordFields_cruWriteWord (cfg : Cfg) (b : CruAddr) (value : BitVec 1) :
    wordFields cfg (cruWriteWord b value) = .cruWrite b value := by
  have hvalue := value.isLt
  have hb : BitVec.ofNat 13 ((b.toNat * 2 + value.toNat) / 2) = b := by
    rw [show (b.toNat * 2 + value.toNat) / 2 = b.toNat by omega, BitVec.ofNat_toNat, BitVec.setWidth_eq]
  have hv : BitVec.ofNat 1 (b.toNat * 2 + value.toNat) = value := by
    apply BitVec.eq_of_toNat_eq
    rw [BitVec.toNat_ofNat]
    omega
  simp only [wordFields, cruWriteWord, hb, hv]

theorem decodeWord_cruWriteWord (cfg : Cfg) {b : CruAddr} (even : oddAddr b = false) (value : BitVec 1) :
    decodeWord cfg (cruWriteWord b value) = .ok (decodeCruWrite b value) := by
  rw [decodeWord_of_fits (Laws.cruWriteWord_fits cfg b value), wordFields_cruWriteWord]
  simp [decode, even]

theorem decodeWord_cruReadWord (cfg : Cfg) {b : CruAddr} (even : oddAddr b = false) :
    decodeWord cfg (cruReadWord b) = .ok (decodeCruRead cfg b) := by
  rw [decodeWord_of_fits (Laws.cruReadWord_fits cfg b)]
  simp [wordFields, cruReadWord, decode, even]

/-- A CRU write that no named row matches selects the otherwise-row (R120). -/
theorem decodeCruWrite_other {b : CruAddr} {value : BitVec 1}
    (h : ¬(value = 1 ∧ (b = intackAddr ∨ b = mux1Addr ∨ b = mux2Addr ∨ b = mux3Addr))) :
    decodeCruWrite b value = .cwrOther b value := by
  unfold decodeCruWrite
  split_ifs with intack mux1 mux2 mux3
  · exact absurd ⟨intack.2, .inl intack.1⟩ h
  · exact absurd ⟨mux1.2, .inr (.inl mux1.1)⟩ h
  · exact absurd ⟨mux2.2, .inr (.inr (.inl mux2.1))⟩ h
  · exact absurd ⟨mux3.2, .inr (.inr (.inr mux3.1))⟩ h
  · rfl

/-- Settles O1: the decoder takes the word of each format apart into the fields the encoder put there, and each dispatch
reads the row back from the operand's own class. -/
theorem decodeOfEncodeIsTheOperation : Obligations.DecodeOfEncodeIsTheOperation := by
  intro cfg hv i h
  cases i with
  | mrdRom a | mrdVram a | mrdWram a | mrdAram a | mrdCrtc0 a | mrdCrtc1 a | mrdUnmapped a =>
    rw [encode, decodeWord_memReadWord hv h, decodeMemRead, (selects_iff.1 h).2]
  | mwrRom a v | mwrVram a v | mwrWram a v | mwrAram a v | mwrCrtc0 a v | mwrCrtc1 a v | mwrUnmapped a v =>
    rw [encode, decodeWord_memWriteWord hv v h, decodeMemWrite, (selects_iff.1 h).2]
  | cwrIntack | cwrMux1 | cwrMux2 | cwrMux3 => exact decodeWord_cruWriteWord cfg (by decide) 1
  | cwrOther b value =>
    obtain ⟨even, other⟩ := otherCruWrite_iff.1 h
    rw [encode, decodeWord_cruWriteWord cfg even, decodeCruWrite_other other]
  | crdMux =>
    obtain ⟨-, -, -, -, even⟩ := hv
    rw [encode, decodeWord_cruReadWord cfg even, decodeCruRead, if_pos rfl]
  | crdOther b =>
    obtain ⟨even, other⟩ : oddAddr b = false ∧ b ≠ cfg.muxReadAddr := by simpa [WellFormed, otherCruRead] using h
    rw [encode, decodeWord_cruReadWord cfg even, decodeCruRead, if_neg other]
  | fsync | refresh | poweron => rfl

/-- Settles O3: each word is the one the encoder gives its operation (O1). -/
theorem specWordsDecode : Obligations.SpecWordsDecode := by
  have decoded := decodeOfEncodeIsTheOperation cfgRef (by decide)
  exact ⟨decoded .cwrIntack rfl, decoded .cwrMux1 rfl, decoded .cwrMux2 rfl, decoded .cwrMux3 rfl,
    decoded (.cwrOther 0x0CE2 0) rfl, decoded .crdMux rfl, decoded (.mwrVram 0x3005 0x99) rfl,
    decoded (.mrdAram 0x3805) rfl, decoded .refresh rfl⟩

/-! ## The word of an event -/

/-- The word of the operation an event selects, its address masked (R51). -/
def eventWord (cfg : Cfg) : Event → TxWord
  | .memRead raw => memReadWord (maskAddr cfg raw)
  | .memWrite raw v => memWriteWord cfg (maskAddr cfg raw) v
  | .cruWrite b value => cruWriteWord b value
  | .cruRead b => cruReadWord b
  | .trigger n => triggerWord n.toNat

theorem encode_decodeMemRead (cfg : Cfg) (a : Nat) : encode cfg (decodeMemRead cfg a) = memReadWord a := by
  unfold decodeMemRead
  split <;> rfl

theorem encode_decodeMemWrite (cfg : Cfg) (a : Nat) (v : Byte) :
    encode cfg (decodeMemWrite cfg a v) = memWriteWord cfg a v := by
  unfold decodeMemWrite
  split <;> rfl

theorem encode_decodeCruWrite (cfg : Cfg) (b : CruAddr) (value : BitVec 1) :
    encode cfg (decodeCruWrite b value) = cruWriteWord b value := by
  unfold decodeCruWrite
  split_ifs with intack mux1 mux2 mux3
  · rw [intack.1, intack.2, encode]
  · rw [mux1.1, mux1.2, encode]
  · rw [mux2.1, mux2.2, encode]
  · rw [mux3.1, mux3.2, encode]
  · rfl

theorem encode_decodeCruRead (cfg : Cfg) (b : CruAddr) : encode cfg (decodeCruRead cfg b) = cruReadWord b := by
  unfold decodeCruRead
  split_ifs with mux
  · rw [mux, encode]
  · rfl

/-- The trigger events that decode, with what they decode to (R51). -/
theorem decodeTrigger_eq_ok {n : BitVec 2} {i : Instr} (h : decodeTrigger n = .ok i) :
    n = 0 ∧ i = .fsync ∨ n = 1 ∧ i = .refresh ∨ n = 2 ∧ i = .poweron := by
  unfold decodeTrigger at h
  split_ifs at h with h0 h1 h2 <;> cases h
  · exact .inl ⟨h0, rfl⟩
  · exact .inr (.inl ⟨h1, rfl⟩)
  · exact .inr (.inr ⟨h2, rfl⟩)

/-- What decodes is well-formed, and its word is the event's. -/
theorem decode_eq_ok {cfg : Cfg} {e : Event} {i : Instr} (h : decode cfg e = .ok i) :
    WellFormed cfg i = true ∧ encode cfg i = eventWord cfg e := by
  cases e with
  | memRead raw =>
    simp only [decode] at h
    split_ifs at h
    cases h
    exact ⟨decodeMemRead_wellFormed (maskAddr_le cfg raw), encode_decodeMemRead cfg _⟩
  | memWrite raw v =>
    simp only [decode] at h
    split_ifs at h
    cases h
    exact ⟨decodeMemWrite_wellFormed v (maskAddr_le cfg raw), encode_decodeMemWrite cfg _ v⟩
  | cruWrite b value =>
    simp only [decode] at h
    split_ifs at h with odd
    cases h
    exact ⟨decodeCruWrite_wellFormed (Bool.eq_false_of_not_eq_true odd), encode_decodeCruWrite cfg b value⟩
  | cruRead b =>
    simp only [decode] at h
    split_ifs at h with odd
    cases h
    exact ⟨decodeCruRead_wellFormed (Bool.eq_false_of_not_eq_true odd), encode_decodeCruRead cfg b⟩
  | trigger n => obtain ⟨rfl, rfl⟩ | ⟨rfl, rfl⟩ | ⟨rfl, rfl⟩ := decodeTrigger_eq_ok h <;> exact ⟨rfl, rfl⟩

/-- A word that decodes fits its format, and its event decodes. -/
theorem decodeWord_eq_ok {cfg : Cfg} {t : TxWord} {i : Instr} (h : decodeWord cfg t = .ok i) :
    t.word < 2 ^ formatWidth cfg t.format ∧ decode cfg (wordFields cfg t) = .ok i := by
  by_cases fits : t.word < 2 ^ formatWidth cfg t.format
  · exact ⟨fits, decodeWord_of_fits fits ▸ h⟩
  · simp [decodeWord, wordEvent, fits] at h

/-- The word of the event a word stands for is that word: R51's fields lose no bit. -/
theorem eventWord_wordFields {cfg : Cfg} {t : TxWord} (h : t.word < 2 ^ formatWidth cfg t.format) :
    (eventWord cfg (wordFields cfg t)).format = t.format ∧ (eventWord cfg (wordFields cfg t)).word = t.word := by
  obtain ⟨f, w, v⟩ := t
  cases f with
  | M =>
    have hw : w < 2 ^ cfg.aw * 2 := by simpa [formatWidth, Nat.pow_succ] using h
    have hdiv : w / 2 ^ cfg.aw < 2 := Nat.div_lt_of_lt_mul hw
    have hsum := Nat.div_add_mod w (2 ^ cfg.aw)
    simp only [wordFields]
    split
    · rename_i hk
      simp only [eventWord, memReadWord, maskAddr_eq_mod, Nat.mod_mod, true_and]
      rw [hk] at hsum
      omega
    · rename_i hk
      simp only [eventWord, memWriteWord, maskAddr_eq_mod, Nat.mod_mod, true_and]
      rw [Nat.le_antisymm (Nat.le_of_lt_succ hdiv) (Nat.pos_of_ne_zero hk)] at hsum
      omega
  | CW =>
    simp only [formatWidth] at h
    simp only [wordFields, eventWord, cruWriteWord, BitVec.toNat_ofNat, true_and]
    omega
  | CR => exact ⟨rfl, Nat.mod_eq_of_lt h⟩
  | EV => exact ⟨rfl, Nat.mod_eq_of_lt h⟩

/-- Settles O2: the operation's word is the word of the event it was decoded from, which is the word itself. -/
theorem encodeOfDecodeIsTheWord : Obligations.EncodeOfDecodeIsTheWord := by
  intro cfg t i _ h
  obtain ⟨fits, he⟩ := decodeWord_eq_ok h
  obtain ⟨wellFormed, word⟩ := decode_eq_ok he
  exact ⟨wellFormed, word ▸ eventWord_wordFields fits⟩

/-! ## The events -/

/-- Every legal event decodes. -/
theorem decode_of_legal {cfg : Cfg} {e : Event} (h : Machine.Event.legal cfg e = true) : ∃ i, decode cfg e = .ok i := by
  cases e with
  | memRead raw => exact ⟨_, if_pos (of_decide_eq_true h)⟩
  | memWrite raw v => exact ⟨_, if_pos (of_decide_eq_true h)⟩
  | cruWrite b value => exact ⟨_, if_neg (by simpa [Machine.Event.legal] using h)⟩
  | cruRead b => exact ⟨_, if_neg (by simpa [Machine.Event.legal] using h)⟩
  | trigger n =>
    have hn : n ≠ 3 := of_decide_eq_true h
    obtain rfl | rfl | rfl : n = 0 ∨ n = 1 ∨ n = 2 := by bv_omega
    · exact ⟨.fsync, rfl⟩
    · exact ⟨.refresh, rfl⟩
    · exact ⟨.poweron, rfl⟩

/-- Settles O5: a legal event decodes, and what decodes is well-formed. -/
theorem everyTransactionSelectsARow : Obligations.EveryTransactionSelectsARow := by
  intro cfg e h
  obtain ⟨i, hi⟩ := decode_of_legal h
  exact ⟨i, hi, (decode_eq_ok hi).1⟩

/-- Settles O7: the dispatch reads the masked address, which is the raw one modulo `2^AW`. -/
theorem addressWindowRepeats : Obligations.AddressWindowRepeats := by
  intro cfg raw raw' h h' heq
  have mask : maskAddr cfg raw = maskAddr cfg raw' := by rw [maskAddr_eq_mod, maskAddr_eq_mod, heq]
  simp [decode, h, h', mask]

theorem cruWriteWord_inj {b b' : CruAddr} {value value' : BitVec 1} (h : cruWriteWord b value = cruWriteWord b' value') :
    b = b' ∧ value = value' := by
  have hf := congrArg (wordFields cfgRef) h
  rw [wordFields_cruWriteWord, wordFields_cruWriteWord] at hf
  cases hf
  exact ⟨rfl, rfl⟩

/-- A CRU write selects only the row whose word is its own. -/
theorem operands_of_decodeCruWrite {b b' : CruAddr} {value value' : BitVec 1} {i : Instr}
    (hi : encode cfgRef i = cruWriteWord b' value') (h : decodeCruWrite b value = i) : b = b' ∧ value = value' :=
  cruWriteWord_inj (by rw [← encode_decodeCruWrite cfgRef, h, hi])

/-- Settles O8: a named row is selected by its own word only, and the otherwise-row is well-formed only where no named row
matches. -/
theorem cruWriteSelectsByExactMatch : Obligations.CruWriteSelectsByExactMatch := by
  intro cfg b value even
  have hd (i : Instr) : decode cfg (.cruWrite b value) = .ok i ↔ decodeCruWrite b value = i := by simp [decode, even]
  simp only [hd]
  refine ⟨⟨operands_of_decodeCruWrite rfl, ?_⟩, ⟨operands_of_decodeCruWrite rfl, ?_⟩,
    ⟨operands_of_decodeCruWrite rfl, ?_⟩, ⟨operands_of_decodeCruWrite rfl, ?_⟩, ⟨fun h => ?other, decodeCruWrite_other⟩⟩
  case other =>
    have wellFormed := decodeCruWrite_wellFormed (cfg := cfg) (value := value) even
    rw [h] at wellFormed
    exact (otherCruWrite_iff.1 wellFormed).2
  all_goals
    rintro ⟨rfl, rfl⟩
    rfl

end Sys2Proof
end

section
/-!
The opcode table (spec/30_encoding.md R62). Each mask keeps a run of bits, so what a row matches is an interval of words, and
the first row that matches a memory word is the one of the address's range in `CFG_REF`.
-/

namespace Sys2Proof

/-- Masking `w` with the `m` bits from bit `n` on keeps those bits. -/
theorem and_bits_eq (w m n : Nat) : w &&& (2 ^ m - 1) * 2 ^ n = w / 2 ^ n % 2 ^ m * 2 ^ n := by
  have hdiv : (w &&& (2 ^ m - 1) * 2 ^ n) / 2 ^ n = w / 2 ^ n % 2 ^ m := by
    rw [Nat.and_div_two_pow, Nat.mul_div_cancel _ (Nat.two_pow_pos n), Nat.and_two_pow_sub_one_eq_mod]
  have hmod : (w &&& (2 ^ m - 1) * 2 ^ n) % 2 ^ n = 0 := by
    rw [Nat.and_mod_two_pow, Nat.mul_mod_left, Nat.and_zero]
  rw [← hdiv, Nat.div_mul_cancel (Nat.dvd_of_mod_eq_zero hmod)]

theorem and_block (w : Nat) : w &&& 0x7C00 = w / 1024 % 32 * 1024 := and_bits_eq w 5 10

theorem and_memWord (w : Nat) : w &&& 0x7FFF = w % 0x8000 := Nat.and_two_pow_sub_one_eq_mod w 15

theorem and_kind (w : Nat) : w &&& 0x4000 = w / 0x4000 % 2 * 0x4000 := and_bits_eq w 1 14

/-- The map of `CFG_REF` (R33). -/
theorem region_cfgRef (a : Nat) :
    region cfgRef a = .rom ∧ a ≤ 0x2FFF ∨ region cfgRef a = .vram ∧ 0x3000 ≤ a ∧ a ≤ 0x33FF ∨
      region cfgRef a = .wram ∧ 0x3400 ≤ a ∧ a ≤ 0x37FF ∨ region cfgRef a = .aram ∧ 0x3800 ≤ a ∧ a ≤ 0x3BFF ∨
      region cfgRef a = .crtc0 ∧ a = 0x3E00 ∨ region cfgRef a = .crtc1 ∧ a = 0x3E01 ∨
      region cfgRef a = .unmapped ∧ 0x3C00 ≤ a ∧ a ≠ 0x3E00 ∧ a ≠ 0x3E01 := by
  obtain ⟨rom, vram, wram, aram, crtc0, crtc1, unmapped⟩ := regionIsTheRangeThatHoldsTheAddress cfgRef (by decide) a
  cases hr : region cfgRef a with
  | rom => exact .inl ⟨rfl, (rom.1 hr).2⟩
  | vram => exact .inr (.inl ⟨rfl, vram.1 hr⟩)
  | wram => exact .inr (.inr (.inl ⟨rfl, wram.1 hr⟩))
  | aram => exact .inr (.inr (.inr (.inl ⟨rfl, aram.1 hr⟩)))
  | crtc0 => exact .inr (.inr (.inr (.inr (.inl ⟨rfl, Nat.le_antisymm (crtc0.1 hr).2 (crtc0.1 hr).1⟩))))
  | crtc1 => exact .inr (.inr (.inr (.inr (.inr (.inl ⟨rfl, Nat.le_antisymm (crtc1.1 hr).2 (crtc1.1 hr).1⟩)))))
  | unmapped =>
    have outside := unmapped.1 hr
    simp only [Cfg.ranges, List.forall_mem_cons, cfgRef] at outside
    refine .inr (.inr (.inr (.inr (.inr (.inr ⟨rfl, ?_⟩)))))
    omega

/-- The table names the row of each masked address, read or written. -/
theorem tableSelect_memory {a : Nat} (ha : a ≤ cfgRef.addrMask) (v : Byte) :
    tableSelect .M a = some (decodeMemRead cfgRef a).mnemonic ∧
      tableSelect .M (2 ^ cfgRef.aw + a) = some (decodeMemWrite cfgRef a v).mnemonic := by
  have window : a < 0x4000 := Nat.lt_succ_of_le ha
  have pow : 2 ^ cfgRef.aw = 0x4000 := rfl
  obtain ⟨hr, range⟩ | ⟨hr, range⟩ | ⟨hr, range⟩ | ⟨hr, range⟩ | ⟨hr, range⟩ | ⟨hr, range⟩ | ⟨hr, range⟩ :=
    region_cfgRef a <;>
  simp (disch := omega) [decodeMemRead, decodeMemWrite, hr, pow, Instr.mnemonic, tableSelect, opcodeTable,
    TableRow.matchesWord, and_block, and_memWord, and_kind, List.find?_cons, decide_eq_true, decide_eq_false]

/-- A CRU write word that is none of the four named ones falls through to the otherwise-row. -/
theorem tableSelect_cruWrite_other {w : Nat} (fits : w < 2 ^ 14) (h1 : w ≠ 0x19C5) (h2 : w ≠ 0x1985)
    (h3 : w ≠ 0x1989) (h4 : w ≠ 0x198D) : tableSelect .CW w = some "CWR.OTHER" := by
  have mask : w &&& 0x3FFF = w := (Nat.and_two_pow_sub_one_eq_mod w 14).trans (Nat.mod_eq_of_lt fits)
  simp [tableSelect, opcodeTable, TableRow.matchesWord, mask, h1, h2, h3, h4]

/-- A CRU read word other than the multiplexed line's falls through to the otherwise-row. -/
theorem tableSelect_cruRead_other {w : Nat} (fits : w < 2 ^ 13) (h : w ≠ 0x0C80) :
    tableSelect .CR w = some "CRD.OTHER" := by
  have mask : w &&& 0x1FFF = w := (Nat.and_two_pow_sub_one_eq_mod w 13).trans (Nat.mod_eq_of_lt fits)
  simp [tableSelect, opcodeTable, TableRow.matchesWord, mask, h]

theorem otherCruRead_iff {cfg : Cfg} {b : CruAddr} :
    otherCruRead cfg b = true ↔ oddAddr b = false ∧ b ≠ cfg.muxReadAddr := by
  simp [otherCruRead]

/-- The table names the row of every well-formed operation, by the operation's word. -/
theorem tableSelect_encode {i : Instr} (h : WellFormed cfgRef i = true) :
    tableSelect (encode cfgRef i).format (encode cfgRef i).word = some i.mnemonic := by
  cases i with
  | mrdRom a | mrdVram a | mrdWram a | mrdAram a | mrdCrtc0 a | mrdCrtc1 a | mrdUnmapped a =>
    obtain ⟨ha, hr⟩ := selects_iff.1 h
    have named := (tableSelect_memory ha 0).1
    rwa [decodeMemRead, hr] at named
  | mwrRom a v | mwrVram a v | mwrWram a v | mwrAram a v | mwrCrtc0 a v | mwrCrtc1 a v | mwrUnmapped a v =>
    obtain ⟨ha, hr⟩ := selects_iff.1 h
    have named := (tableSelect_memory ha v).2
    rwa [decodeMemWrite, hr] at named
  | cwrIntack | cwrMux1 | cwrMux2 | cwrMux3 | crdMux | fsync | refresh | poweron => rfl
  | cwrOther b value =>
    obtain ⟨-, other⟩ := otherCruWrite_iff.1 h
    have unnamed {b' : CruAddr} (named : b' = intackAddr ∨ b' = mux1Addr ∨ b' = mux2Addr ∨ b' = mux3Addr) :
        b.toNat * 2 + value.toNat ≠ b'.toNat * 2 + 1 := by
      intro hw
      obtain ⟨rfl, rfl⟩ := cruWriteWord_inj (value' := 1) (congrArg (TxWord.mk .CW · 0) hw)
      exact other ⟨rfl, named⟩
    exact tableSelect_cruWrite_other (Laws.cruWriteWord_fits cfgRef b value) (unnamed (.inl rfl))
      (unnamed (.inr (.inl rfl))) (unnamed (.inr (.inr (.inl rfl)))) (unnamed (.inr (.inr (.inr rfl))))
  | crdOther b =>
    obtain ⟨-, other⟩ := otherCruRead_iff.1 h
    exact tableSelect_cruRead_other b.isLt fun hw => other (BitVec.eq_of_toNat_eq hw)

/-- Settles O4: a word that decodes is its operation's own word (O2), and the table names the row of that word. -/
theorem opcodeTableNamesTheDecodedOperation : Obligations.OpcodeTableNamesTheDecodedOperation := by
  intro f w v i h
  obtain ⟨wellFormed, format, word⟩ := encodeOfDecodeIsTheWord cfgRef ⟨f, w, v⟩ i (by decide) h
  have named := tableSelect_encode wellFormed
  rwa [format, word] at named

end Sys2Proof
end

section
/-!
The step and the invariant (spec/00_scope.md R5, spec/20_memory.md R42, spec/10_state.md section 8): how an event is taken,
when an operation is answered, and what every step keeps.
-/

namespace Sys2Proof.Machine

/-! ## Taking an event -/

theorem State.take_of_pending_nil {s : State} (h : s.pending = []) :
    s.take = { s with ticks := s.ticks + 1, ports := s.nextStimulus.ports } := by
  simp [State.nextStimulus, State.take, h]

theorem State.take_ports (s : State) : s.take.ports = s.nextStimulus.ports := by
  cases h : s.pending with
  | nil => rw [State.take_of_pending_nil h]
  | cons x rest =>
    obtain ⟨next, take⟩ := State.take_of_pending h
    rw [take, next]

/-- Where no event waits the free one is legal, having been cut down to a legal one (log 1). -/
theorem safe_of_pending_nil {s : State} (h : s.pending = []) : Safe s := by
  simp only [Safe, State.nextStimulus, h]
  exact Event.legal_legalise _ _

theorem step_of_decode_error {s : State} {why : Reject} (h : decode s.cfg s.nextStimulus.event = .error why) :
    step s = .refused (.rejected why) := by
  simp [step, h]

/-- Settles O9: an event is taken from the head of the waiting list, or is the free one where the list is empty. -/
theorem stepRunsTheDecodedOperation : Obligations.StepRunsTheDecodedOperation :=
  fun s _ h => ⟨step_of_decode h, s.take_ports, fun _ _ => State.take_of_pending, State.take_of_pending_nil⟩

/-- Settles O10: the decoder rejects the event at the head of the list by name. -/
theorem oddCruAddressIsRefused : Obligations.OddCruAddressIsRefused :=
  fun _ _ _ _ _ odd => ⟨step_of_decode_error (if_pos odd), step_of_decode_error (if_pos odd)⟩

/-! ## When an operation is answered -/

/-- Settles O12: a well-formed operation has its effect, and every other one is refused. -/
theorem operationCompletesExactlyWhenWellFormed : Obligations.OperationCompletesExactlyWhenWellFormed :=
  fun _ _ => ⟨fun h => ⟨_, exec_of_wellFormed h⟩, fun ⟨_, h⟩ => (exec_next h).1⟩

/-- Settles O11: a legal event selects a well-formed operation (O5), which completes. -/
theorem everyTransactionIsAccepted : Obligations.EveryTransactionIsAccepted := by
  intro s h
  have safe : Safe s := h.elim id safe_of_pending_nil
  obtain ⟨i, hi, wellFormed⟩ := everyTransactionSelectsARow s.cfg s.nextStimulus.event safe
  exact ⟨_, (step_of_decode hi).trans (exec_of_wellFormed (by rwa [State.take_cfg]))⟩

/-! ## What a step keeps -/

/-- Where a step answers a next state, it is the effect of a well-formed operation on the state the event was taken in. -/
theorem step_effect {s t : State} (h : step s = .next t) :
    ∃ i, WellFormed s.cfg i = true ∧ t = effect s.take i := by
  obtain ⟨i, -, hx⟩ := step_next h
  obtain ⟨wellFormed, rfl⟩ := exec_next hx
  exact ⟨i, by rwa [State.take_cfg] at wellFormed, rfl⟩

/-- Settles O15: taking an event keeps the configuration, and so does every operation; ROM is a part of it. -/
theorem noStepChangesTheConfiguration : Obligations.NoStepChangesTheConfiguration := by
  intro s t h
  obtain ⟨i, -, rfl⟩ := step_effect h
  have kept : (effect s.take i).cfg = s.cfg := by rw [effect_cfg, State.take_cfg]
  exact ⟨kept, fun k => by rw [kept]⟩

theorem cellIndex_aram_lt {cfg : Cfg} {a : Nat} (h : region cfg a = .aram) : cellIndex cfg.aramLo a < 1024 := by
  have := region_aram h
  unfold cellIndex
  omega

theorem cellIndex_wram_lt {cfg : Cfg} {a : Nat} (size : 1 ≤ cfg.wramSize) (h : region cfg a = .wram) :
    cellIndex cfg.wramLo a < cfg.wramSize := by
  have := region_wram h
  unfold cellIndex
  omega

/-- A store at a cell of the memory keeps the canonical form. -/
theorem memory_canonical_write {n i : Nat} {m : Memory} (h : Memory.wf m = true ∧ Memory.inside n m = true) (hi : i < n)
    (v : Byte) : Memory.wf (Memory.write m i v) = true ∧ Memory.inside n (Memory.write m i v) = true :=
  ⟨Memory.wf_write m i v h.1, Memory.inside_write n m i v h.2 hi⟩

/-- Every well-formed operation keeps the memories canonical: a store goes to a cell of its memory, a power cycle empties
the two volatile ones, and nothing else touches them. -/
theorem effect_canonical {s : State} (size : 1 ≤ s.cfg.wramSize) (hs : Canonical s) {i : Instr}
    (h : WellFormed s.cfg i = true) : Canonical (effect s i) := by
  obtain ⟨vram, aram, wram⟩ := hs
  cases i with
  | mwrVram a v => exact ⟨memory_canonical_write vram (cellIndex_vram_lt (selects_iff.1 h).2) v, aram, wram⟩
  | mwrAram a v => exact ⟨vram, memory_canonical_write aram (cellIndex_aram_lt (selects_iff.1 h).2) v, wram⟩
  | mwrWram a v => exact ⟨vram, aram, memory_canonical_write wram (cellIndex_wram_lt size (selects_iff.1 h).2) v⟩
  | poweron => exact ⟨⟨rfl, rfl⟩, ⟨rfl, rfl⟩, wram⟩
  | _ => exact ⟨vram, aram, wram⟩

/-- Every well-formed operation keeps the invariant. -/
theorem effect_inv {s : State} (hs : Inv s) {i : Instr} (h : WellFormed s.cfg i = true) : Inv (effect s i) := by
  obtain ⟨valid, canonical, coherent⟩ := hs
  have ⟨_, size, _⟩ := valid
  exact ⟨by rwa [effect_cfg], effect_canonical size canonical h, effect_coherent coherent i⟩

/-- Taking an event touches nothing the invariant speaks of. -/
theorem State.take_inv {s : State} (h : Inv s) : Inv s.take := by
  rw [State.take_frame]
  exact h

/-- Settles O14: the event is taken, which keeps the invariant, and so does the operation it selects. -/
theorem everyStepKeepsTheInvariant : Obligations.EveryStepKeepsTheInvariant := by
  intro s t hs h
  obtain ⟨i, wellFormed, rfl⟩ := step_effect h
  exact effect_inv (State.take_inv hs) (by rwa [State.take_cfg])

/-! ## Reset and POWERON -/

theorem State.reset_dirtyAt {i : Nat} (h : i < 1024) : State.reset.dirtyAt i = true := by
  simp [State.dirtyAt, State.reset, h]

/-- Settles O13: at reset the memories list no cell and every slot is dirty. -/
theorem invariantHoldsAfterReset : Obligations.InvariantHoldsAfterReset :=
  ⟨by decide, by decide, fun _ hi => .inl (State.reset_dirtyAt hi)⟩

/-- Settles O48: no cell is listed at reset, so each holds its free value. -/
theorem resetState : Obligations.ResetState :=
  ⟨rfl, rfl, rfl, fun _ => State.reset_dirtyAt, fun _ => ⟨rfl, rfl, rfl⟩, fun _ _ => pixel_of_powerOnPicture rfl⟩

theorem exec_poweron (s : State) : exec .poweron s = .next (s.powerCycle.driveLine .clear) := rfl

/-- Settles O47: the power cycle empties the volatile memories, so each of their cells holds its free value, and the
line is then driven clear. -/
theorem powerOnResetsAllButWorkingMemory : Obligations.PowerOnResetsAllButWorkingMemory :=
  fun s => ⟨_, exec_poweron s, rfl, rfl, rfl, rfl, rfl, fun _ => ⟨rfl, rfl, rfl⟩, s.powerCycle_dirtyAt,
    fun _ _ => pixel_of_powerOnPicture rfl, rfl⟩

end Sys2Proof.Machine
end

section
/-!
The ARAM, CRTC and unmapped rows (spec/40_address_decoder.md R76 to R83) and the unknown CRU read
(spec/42_cru_io.md R128); then what every operation leaves unchanged of the bytes by address and of the collaborator.
-/

namespace Sys2Proof.Machine

/-! ## The rows -/

/-- Settles O22: the address selects the row, whose effect is to return the whole stored byte. -/
theorem attributeReadReturnsTheStoredByte : Obligations.AttributeReadReturnsTheStoredByte :=
  fun _ _ h => exec_of_wellFormed h

/-- Settles O24: each address of the sub-range selects the row, whose effect is what the collaborator returns. -/
theorem controllerReadsAreForwarded : Obligations.ControllerReadsAreForwarded :=
  ⟨fun _ _ h => exec_of_wellFormed h, fun _ _ h => exec_of_wellFormed h⟩

/-- Settles O25: each address of the sub-range selects the row, whose effect is to hand the byte on. -/
theorem controllerWritesAreForwarded : Obligations.ControllerWritesAreForwarded :=
  ⟨fun _ _ _ h => exec_of_wellFormed h, fun _ _ _ h => exec_of_wellFormed h⟩

/-- Settles O26: the operands are the rows' own; the reads' effect is one draw, the write's is the state it found. -/
theorem unknownReadsAreFreshDraws : Obligations.UnknownReadsAreFreshDraws :=
  ⟨fun _ _ h => ⟨fun _ => exec_of_wellFormed h, exec_of_wellFormed h⟩,
    fun _ _ even other => exec_of_wellFormed (otherCruRead_iff.2 ⟨even, other⟩)⟩

/-- A store into the ARAM range changes the byte at the stored address and at no other. -/
theorem State.setAram_busByte {s : State} {a : Nat} (h : region s.cfg a = .aram) (v : Byte) (a' : Nat) :
    (s.setAram (cellIndex s.cfg.aramLo a) v).busByte a' = if a' = a then some v else s.busByte a' := by
  split
  · subst a'
    simp [State.busByte, h]
  · rename_i hne
    refine State.busByte_congr rfl (fun _ => rfl) (fun _ => rfl) (fun h' => ?_)
    rw [State.setAram_aramByte, if_neg (cellIndex_ne (region_aram h).1 (region_aram h').1 hne)]

/-- A refresh draws a dirty slot from its two cells. -/
theorem State.refresh_pixel_of_dirty {s : State} {i : Nat} (hi : i < 1024) (dirty : s.dirtyAt i = true) (y x : BitVec 3) :
    s.redraw.cleanAll.pixel (slotRow i * 8 + y.toNat) (slotCol i * 8 + x.toNat) = s.tilePixel i y x := by
  rw [State.cleanAll_pixel, State.redraw_pixel_slot s hi, if_pos dirty]

/-- Settles O23: the row's effect is the store and the flag of the same cell; the refresh then draws that slot, whose bank
is the two low bits of the stored byte. -/
theorem attributeWriteStoresAndInvalidates : Obligations.AttributeWriteStoresAndInvalidates := by
  intro s a v h
  have hr : region s.cfg a = .aram := (selects_iff.1 h).2
  have hslot : a - s.cfg.aramLo < 1024 := cellIndex_aram_lt hr
  have hbus := State.setAram_busByte hr v
  have stored : (effect s (.mwrAram a v)).aramByte (a - s.cfg.aramLo) = v := by simp [effect, cellIndex]
  have flag : (effect s (.mwrAram a v)).dirtyAt (a - s.cfg.aramLo) = true :=
    (State.invalidate_dirtyAt ..).trans (if_pos ⟨rfl, hslot⟩)
  refine ⟨_, exec_of_wellFormed h, stored, flag, fun j hj => ?others, rfl, by simp [effect, hbus],
    fun a' hne => by simp [effect, hbus, hne], _, exec_refresh _, fun y x => ?drawn⟩
  case others => simp [effect, cellIndex, hj.symm]
  case drawn =>
    rw [State.refresh_pixel_of_dirty hslot flag, State.tilePixel, State.bankOf, stored]
    rfl

/-! ## Bytes by address -/

theorem State.powerCycle_busByte {s : State} {a : Nat} (h : region s.cfg a = .rom ∨ region s.cfg a = .wram) :
    s.powerCycle.busByte a = s.busByte a := by
  obtain h | h := h <;> simp [State.busByte, h]

@[simp] theorem State.driveLine_busByte (s : State) (l : Line) (a : Nat) : (s.driveLine l).busByte a = s.busByte a := rfl

/-- A well-formed operation keeps the byte at every address it does not store to, a power cycle those of ROM and working
memory only. -/
theorem effect_busByte {i : Instr} {s : State} (h : WellFormed s.cfg i = true) {a : Nat}
    (ha : region s.cfg a = .rom ∨ region s.cfg a = .wram ∨ i ≠ .poweron) (stores : storeAddress i ≠ some a) :
    (effect s i).busByte a = s.busByte a := by
  cases i with
  | mwrVram a' v =>
    have hne : a ≠ a' := fun e => stores (congrArg some e.symm)
    rw [effect, State.invalidate_busByte, State.setVram_busByte (selects_iff.1 h).2, if_neg hne]
  | mwrAram a' v =>
    have hne : a ≠ a' := fun e => stores (congrArg some e.symm)
    rw [effect, State.invalidate_busByte, State.setAram_busByte (selects_iff.1 h).2, if_neg hne]
  | mwrWram a' v =>
    have hne : a ≠ a' := fun e => stores (congrArg some e.symm)
    rw [effect, State.setWram_busByte (selects_iff.1 h).2, if_neg hne]
  | poweron =>
    have kept : region s.cfg a = .rom ∨ region s.cfg a = .wram := ha.imp_right fun h => h.resolve_right (· rfl)
    rw [effect, State.driveLine_busByte, State.powerCycle_busByte kept]
  | _ => rfl

/-- Settles O27: what holds of every operation's effect holds of every operation that is answered. -/
theorem bytesChangeOnlyWhereStored : Obligations.BytesChangeOnlyWhereStored := by
  intro i s t h a
  obtain ⟨wellFormed, rfl⟩ := exec_next h
  exact effect_busByte wellFormed

/-- Settles O44: the four forwarded rows and POWERON set the collaborator's state, the others leave it. -/
theorem controllerChangesOnlyByForwarding : Obligations.ControllerChangesOnlyByForwarding := by
  intro i s t h
  obtain ⟨-, rfl⟩ := exec_next h
  cases i <;> rfl

/-! ## Sequences of operations -/

/-- What each operation of a sequence keeps, where it is answered, the sequence keeps. -/
theorem runInstrs_keeps {P : State → Prop} {is : List Instr}
    (keeps : ∀ i ∈ is, ∀ s t, P s → exec i s = .next t → P t) {s t : State} (hs : P s)
    (h : runInstrs is s = .next t) : P t := by
  induction is generalizing s with
  | nil =>
    cases h
    exact hs
  | cons i is ih =>
    obtain ⟨u, hi, hu⟩ := runInstrs_cons h
    exact ih (fun j hj => keeps j (.tail i hj)) (keeps i (.head is) s u hs hi) hu

/-- The byte at an address after a sequence that does not store to it, with no POWERON in it where the address is not of ROM
or working memory. -/
theorem runInstrs_busByte {s t : State} {a : Nat} {is : List Instr} (stores : ∀ i ∈ is, storeAddress i ≠ some a)
    (ha : region s.cfg a = .rom ∨ region s.cfg a = .wram ∨ .poweron ∉ is) (h : runInstrs is s = .next t) :
    t.cfg = s.cfg ∧ t.busByte a = s.busByte a := by
  refine runInstrs_keeps (P := fun u => u.cfg = s.cfg ∧ u.busByte a = s.busByte a) ?_ ⟨rfl, rfl⟩ h
  rintro i hi u w ⟨cfg, byte⟩ hx
  obtain ⟨wellFormed, rfl⟩ := exec_next hx
  have away : region u.cfg a = .rom ∨ region u.cfg a = .wram ∨ i ≠ .poweron := by
    rw [cfg]
    exact ha.imp_right (Or.imp_right fun none => ne_of_mem_of_not_mem hi none)
  exact ⟨(effect_cfg u i).trans cfg, (effect_busByte wellFormed away (stores i hi)).trans byte⟩

/-- The reads of the three memories return the byte at the address (R72, R74, R76). -/
theorem exec_mrd_of_busByte {s : State} {a : Nat} {v : Byte} (byte : s.busByte a = some v) :
    (selects s.cfg .vram a = true → exec (.mrdVram a) s = .next (s.respond v)) ∧
      (selects s.cfg .aram a = true → exec (.mrdAram a) s = .next (s.respond v)) ∧
      (selects s.cfg .wram a = true → exec (.mrdWram a) s = .next (s.respond v)) := by
  refine ⟨fun h => ?_, fun h => ?_, fun h => ?_⟩ <;>
  · rw [State.busByte, (selects_iff.1 h).2, Option.some_inj] at byte
    rw [← byte]
    exact exec_of_wellFormed h

/-- Settles O28: the store puts the byte at the address, the sequence keeps it there, and the read returns it. -/
theorem readAfterWriteReturnsTheByte : Obligations.ReadAfterWriteReturnsTheByte := by
  intro s t u a v is stores run
  refine ⟨fun h none => ?vram, fun h none => ?aram, fun h => ?wram⟩ <;>
    obtain ⟨hsel, rfl⟩ := exec_next h
  case vram =>
    have stored : (effect s (.mwrVram a v)).busByte a = some v := by
      simp [effect, State.setVram_busByte (selects_iff.1 hsel).2]
    obtain ⟨cfg, byte⟩ := runInstrs_busByte stores (.inr (.inr none)) run
    rw [effect_cfg] at cfg
    have ⟨read, _, _⟩ := exec_mrd_of_busByte (byte.trans stored)
    exact read (by rwa [cfg])
  case aram =>
    have stored : (effect s (.mwrAram a v)).busByte a = some v := by
      simp [effect, State.setAram_busByte (selects_iff.1 hsel).2]
    obtain ⟨cfg, byte⟩ := runInstrs_busByte stores (.inr (.inr none)) run
    rw [effect_cfg] at cfg
    have ⟨_, read, _⟩ := exec_mrd_of_busByte (byte.trans stored)
    exact read (by rwa [cfg])
  case wram =>
    have stored : (effect s (.mwrWram a v)).busByte a = some v := by
      simp [effect, State.setWram_busByte (selects_iff.1 hsel).2]
    have kept : region (effect s (.mwrWram a v)).cfg a = .wram := by rw [effect_cfg, (selects_iff.1 hsel).2]
    obtain ⟨cfg, byte⟩ := runInstrs_busByte stores (.inr (.inl kept)) run
    rw [effect_cfg] at cfg
    have ⟨_, _, read⟩ := exec_mrd_of_busByte (byte.trans stored)
    exact read (by rwa [cfg])

end Sys2Proof.Machine
end

section
/-!
The port selector and the interrupt controller over one operation and over a sequence (spec/42_cru_io.md section 3,
spec/60_exceptions.md R143 to R145): what one operation leaves in a field, the last one of a sequence that writes it decides.
-/

namespace Sys2Proof.Machine

/-- A field that every operation sets to its own value, or leaves where it has none, holds after a sequence what the last
operation with a value says. -/
theorem runInstrs_lastOf {α : Type} {f : Instr → Option α} {g : State → α}
    (sets : ∀ s i, g (effect s i) = (f i).getD (g s)) {is : List Instr} {s t : State} (h : runInstrs is s = .next t) :
    g t = lastOf f is (g s) := by
  induction is generalizing s with
  | nil =>
    cases h
    rfl
  | cons i is ih =>
    obtain ⟨u, hi, hu⟩ := runInstrs_cons h
    obtain ⟨-, rfl⟩ := exec_next hi
    rw [ih hu, sets]
    rfl

/-! ## The port selector -/

/-- The strobes and POWERON leave their own value in the selector, every other operation leaves it (R26 (5)). -/
theorem effect_muxSel (s : State) (i : Instr) : (effect s i).muxSel = (selectionOf i).getD s.muxSel := by
  cases i <;> rfl

/-- Settles O49: an operation that is answered has its effect. -/
theorem selectionHasNoOtherWriter : Obligations.SelectionHasNoOtherWriter := by
  intro i s t h
  obtain ⟨-, rfl⟩ := exec_next h
  exact effect_muxSel s i

/-- Settles O32: by what each operation leaves in the selector (O49). -/
theorem selectionIsTheLastStrobe : Obligations.SelectionIsTheLastStrobe :=
  fun _ _ _ h => runInstrs_lastOf effect_muxSel h

/-! ## The interrupt line -/

/-- Settles O35: by what each operation leaves on the line (R145). -/
theorem lineIsTheLastControllerEvent : Obligations.LineIsTheLastControllerEvent :=
  fun _ _ _ h => runInstrs_lastOf effect_intLine h

/-- An operation that drives the line drives the output to the same level, once (R143). -/
theorem effect_outputs_of_lineOf {i : Instr} {l : Line} (h : lineOf i = some l) (s : State) :
    (effect s i).outputs = s.outputs ++ [.setInterruptLine 1 l] := by
  cases i with
  | cwrIntack | fsync | poweron =>
    cases h
    rfl
  | _ => cases h

/-- An operation that does not drive the line makes no output, or returns one read result. -/
theorem effect_outputs_of_lineOf_none {i : Instr} (h : lineOf i = none) (s : State) :
    (effect s i).outputs = s.outputs ∨ ∃ v, (effect s i).outputs = s.outputs ++ [.readResult v] := by
  cases i with
  | mrdRom | mrdVram | mrdWram | mrdAram | mrdCrtc0 | mrdCrtc1 | mrdUnmapped | crdMux | crdOther => exact .inr ⟨_, rfl⟩
  | cwrIntack | fsync | poweron => cases h
  | _ => exact .inl rfl

/-- Settles O34: the level by `lineOf`; the calls of the output are those of the operations that have one. -/
theorem interruptStateMachine : Obligations.InterruptStateMachine := by
  intro i s t h
  obtain ⟨-, rfl⟩ := exec_next h
  refine ⟨effect_intLine s i, fun l hl => effect_outputs_of_lineOf hl s, fun none k l call => ?_⟩
  obtain same | ⟨v, read⟩ := effect_outputs_of_lineOf_none none s
  · rwa [same] at call
  · rw [read] at call
    simpa using call

/-- Settles O36: the four operations in turn; with port A selected the read returns its snapshot (R129). -/
theorem endToEndScenario : Obligations.EndToEndScenario := by
  intro s
  refine ⟨_, rfl, rfl, rfl, ?_⟩
  rw [State.respond_outputs, State.readMuxInput_portA rfl]
  simp

end Sys2Proof.Machine
end

section
/-!
The renderer as the spec's loop and without a dirty set (spec/41_tile_renderer.md R102, R109), and the reference layout of
the graphics ROM (R104, R105).
-/

namespace Sys2Proof.Machine

/-! ## Drawing every slot (R109) -/

theorem pixel_of_fullPicture {s t : State} (h : t.fb = s.fullPicture) {py px : Nat} (hy : py < 256) (hx : px < 256) :
    t.pixel py px = s.tilePixel (slotOfPixel py px) (tileLine py) (tileLine px) := by
  unfold State.fullPicture at h
  exact pixel_of_ofFn (f := fun py px => s.tilePixel (slotOfPixel py px) (tileLine py) (tileLine px)) h hy hx

/-- The renderer that draws every slot shows every slot's cells. -/
theorem redrawAll_pixel_slot (s : State) {i : Nat} (hi : i < 1024) (y x : BitVec 3) :
    (redrawAll s).pixel (slotRow i * 8 + y.toNat) (slotCol i * 8 + x.toNat) = s.tilePixel i y x := by
  obtain ⟨hy, hx⟩ := slotPixel_lt hi y x
  rw [pixel_of_fullPicture (s := s) rfl hy hx, slotOfPixel_slot, tileLine_slot, tileLine_slot]

/-- States that agree but for the picture and the flags, and agree in those, are one. -/
theorem State.ext_picture {s t u : State} (hs : { s with fb := u.fb, dirty := u.dirty } = u)
    (ht : { t with fb := u.fb, dirty := u.dirty } = u) (fb : s.fb = t.fb) (dirty : s.dirty = t.dirty) : s = t := by
  calc s = { ({ s with fb := u.fb, dirty := u.dirty } : State) with fb := s.fb, dirty := s.dirty } := rfl
    _ = { ({ t with fb := u.fb, dirty := u.dirty } : State) with fb := t.fb, dirty := t.dirty } := by
      rw [hs, ht, fb, dirty]
    _ = t := rfl

/-- Settles O41: in a coherent state the refresh, too, leaves every slot showing its cells (R108). -/
theorem dirtyTrackingIsOptional : Obligations.DirtyTrackingIsOptional := by
  intro s hs
  refine congrArg Host.Outcome.next (State.ext_picture (u := s) rfl rfl ?_ rfl)
  apply fb_ext_slots
  intro i hi y x
  rw [redrawAll_pixel_slot s hi, hs.showsSlot_refresh hi y x]
  rfl

/-! ## The loop (R102) -/

/-- Storing a pixel changes that pixel and no other of the frame buffer. -/
theorem State.setPixel_pixel (s : State) (py px : Nat) (k : Pixel) {qy qx : Nat} (hy : qy < 256) (hx : qx < 256) :
    (s.setPixel py px k).pixel qy qx = if py = qy ∧ px = qx then k else s.pixel qy qx := by
  by_cases hpy : py = qy
  · subst hpy
    by_cases hpx : px = qx
    · subst hpx
      simp [State.pixel, State.setPixel, hy, hx]
    · simp [State.pixel, State.setPixel, hy, hx, hpx]
  · simp [State.pixel, State.setPixel, hy, hpy]

/-- `t` is `s` with the pixels of the region `R` painted from the picture `V`, and nothing else changed. -/
structure Paints (R : Nat → Nat → Prop) (V : Nat → Nat → Pixel) (s t : State) : Prop where
  frame : { t with fb := s.fb } = s
  inside : ∀ {py px}, py < 256 → px < 256 → R py px → t.pixel py px = V py px
  outside : ∀ {py px}, py < 256 → px < 256 → ¬R py px → t.pixel py px = s.pixel py px

theorem Paints.of_iff {R R' : Nat → Nat → Prop} {V : Nat → Nat → Pixel} {s t : State} (h : Paints R V s t)
    (hR : ∀ {py px}, py < 256 → px < 256 → (R' py px ↔ R py px)) : Paints R' V s t where
  frame := h.frame
  inside hy hx hp := h.inside hy hx ((hR hy hx).1 hp)
  outside hy hx hp := h.outside hy hx (mt (hR hy hx).2 hp)

theorem paints_setPixel (V : Nat → Nat → Pixel) (s : State) (py px : Nat) :
    Paints (fun qy qx => py = qy ∧ px = qx) V s (s.setPixel py px (V py px)) where
  frame := rfl
  inside hy hx h := by
    obtain ⟨rfl, rfl⟩ := h
    rw [State.setPixel_pixel s py px _ hy hx, if_pos ⟨rfl, rfl⟩]
  outside hy hx h := by rw [State.setPixel_pixel s py px _ hy hx, if_neg h]

/-- A loop whose turns each paint a region from one picture paints all the regions from it, in whatever order. -/
theorem paints_foldl {ι : Type} {g : State → ι → State} {R : ι → Nat → Nat → Prop} {V : Nat → Nat → Pixel}
    (turn : ∀ t c, Paints (R c) V t (g t c)) (cs : List ι) (s : State) :
    Paints (fun py px => ∃ c ∈ cs, R c py px) V s (cs.foldl g s) := by
  induction cs generalizing s with
  | nil => exact ⟨rfl, fun _ _ h => by simp at h, fun _ _ _ => rfl⟩
  | cons c cs ih =>
    have first := turn s c
    have rest := ih (g s c)
    refine ⟨?frame, fun {py px} hy hx h => ?inside, fun {py px} hy hx h => ?outside⟩
    case frame => exact (congrArg (fun u : State => { u with fb := s.fb }) rest.frame).trans first.frame
    case inside =>
      by_cases hr : ∃ c ∈ cs, R c py px
      · exact rest.inside hy hx hr
      · exact (rest.outside hy hx hr).trans (first.inside hy hx (by simpa [hr] using h))
    case outside =>
      simp only [List.exists_mem_cons_iff, not_or] at h
      obtain ⟨notFirst, notRest⟩ := h
      exact (rest.outside hy hx notRest).trans (first.outside hy hx notFirst)

theorem tileLine_block (r y : Nat) : tileLine (r * 8 + y) = BitVec.ofNat 3 y := by
  apply BitVec.eq_of_toNat_eq
  simp only [tileLine, BitVec.toNat_ofNat]
  omega

/-- The two inner loops run over the pixels the slot owns (R101, R106). -/
theorem slotOfPixel_eq_iff {py px : Nat} (hx : px < 256) (i : Nat) :
    slotOfPixel py px = i ↔
      ∃ y ∈ List.range 8, ∃ x ∈ List.range 8, slotRow i * 8 + y = py ∧ slotCol i * 8 + x = px := by
  simp only [List.mem_range, slotRow_eq, slotCol_eq, slotOfPixel]
  constructor
  · intro h
    exact ⟨py % 8, by omega, px % 8, by omega, by omega, by omega⟩
  · rintro ⟨y, hy, x, hx, rfl, rfl⟩
    omega

/-- The inner loops of R102 paint the slot's pixels with the tile of its cells. -/
theorem paints_drawTile (s : State) (i : Nat) :
    Paints (fun py px => slotOfPixel py px = i) (fun py px => s.tilePixel i (tileLine py) (tileLine px)) s
      (drawTile s i) := by
  refine Paints.of_iff (paints_foldl (fun t y => paints_foldl (fun u x => ?_) _ t) _ s)
    fun _ hx => slotOfPixel_eq_iff hx i
  rw [← tileLine_block (slotRow i) y, ← tileLine_block (slotCol i) x]
  exact paints_setPixel (fun py px => s.tilePixel i (tileLine py) (tileLine px)) u _ _

theorem State.clearDirty_dirtyAt (s : State) (i j : Nat) :
    (s.clearDirty i).dirtyAt j = if i = j then false else s.dirtyAt j := by
  simp only [State.dirtyAt, State.clearDirty, Vector.getElem?_setIfInBounds]
  by_cases h : i = j
  · subst h
    by_cases hi : i < 1024 <;> simp [hi]
  · simp [h]

/-- Two states with the same 1024 flags have the same dirty set. -/
theorem dirty_ext {s t : State} (h : ∀ j, j < 1024 → s.dirtyAt j = t.dirtyAt j) : s.dirty = t.dirty := by
  apply Vector.ext
  intro j hj
  simpa [State.dirtyAt, hj] using h j hj

/-- The outer loop of R102 after its first `n` turns: the slots below `n` are redrawn and clean, the others as they were. -/
structure DrawnBelow (n : Nat) (s t : State) : Prop where
  frame : { t with fb := s.fb, dirty := s.dirty } = s
  flag : ∀ j, t.dirtyAt j = (s.dirtyAt j && decide (n ≤ j))
  pixel : ∀ {py px}, py < 256 → px < 256 →
    t.pixel py px = if slotOfPixel py px < n then s.refreshedPixel py px else s.pixel py px

/-- The tiles depend on neither the picture nor the flags. -/
theorem DrawnBelow.tilePixel_eq {n : Nat} {s t : State} (h : DrawnBelow n s t) (i : Nat) (y x : BitVec 3) :
    t.tilePixel i y x = s.tilePixel i y x := by
  calc t.tilePixel i y x = ({ t with fb := s.fb, dirty := s.dirty } : State).tilePixel i y x := rfl
    _ = s.tilePixel i y x := by rw [h.frame]

theorem DrawnBelow.drawSlot {n : Nat} {s t : State} (h : DrawnBelow n s t) : DrawnBelow (n + 1) s (drawSlot t n) := by
  have flag : t.dirtyAt n = s.dirtyAt n := by simp [h.flag]
  unfold Machine.drawSlot
  split
  case isTrue dirty =>
    obtain ⟨frame, inside, outside⟩ := paints_drawTile t n
    generalize drawTile t n = d at frame inside outside ⊢
    refine ⟨?frame, fun j => ?flag, fun {py px} hy hx => ?pixel⟩
    case frame =>
      exact (congrArg (fun u : State => { u with fb := s.fb, dirty := s.dirty }) frame).trans h.frame
    case flag =>
      have kept : d.dirtyAt j = t.dirtyAt j := by
        rw [← frame]
        rfl
      rw [State.clearDirty_dirtyAt, kept, h.flag]
      grind
    case pixel =>
      change d.pixel py px = _
      by_cases hn : slotOfPixel py px = n
      · rw [inside hy hx hn, h.tilePixel_eq, if_pos (by omega), State.refreshedPixel, hn, ← flag, if_pos dirty]
      · rw [outside hy hx hn, h.pixel hy hx]
        simp only [show slotOfPixel py px < n + 1 ↔ slotOfPixel py px < n by omega]
  case isFalse clean =>
    refine ⟨h.frame, fun j => ?flag, fun {py px} hy hx => ?pixel⟩
    case flag =>
      rw [h.flag]
      grind
    case pixel =>
      rw [h.pixel hy hx]
      by_cases hn : slotOfPixel py px = n
      · rw [if_neg (by omega), if_pos (by omega), State.refreshedPixel, hn, ← flag, if_neg clean]
      · simp only [show slotOfPixel py px < n + 1 ↔ slotOfPixel py px < n by omega]

theorem drawnBelow_range (s : State) (n : Nat) : DrawnBelow n s ((List.range n).foldl drawSlot s) := by
  induction n with
  | zero => exact ⟨rfl, by simp, by simp⟩
  | succ n ih =>
    rw [List.range_succ, List.foldl_append]
    exact ih.drawSlot

/-- Settles O39: after all 1024 turns every slot is redrawn and clean, as the model's REFRESH leaves it. -/
theorem refreshIsTheSlotLoop : Obligations.RefreshIsTheSlotLoop := by
  intro s
  have drawn : DrawnBelow 1024 s (refreshLoop s) := drawnBelow_range s 1024
  refine congrArg Host.Outcome.next (State.ext_picture (u := s) rfl drawn.frame ?picture ?flags)
  case picture =>
    apply fb_ext
    intro py px hy hx
    rw [drawn.pixel hy hx, if_pos (slotOfPixel_lt hy hx)]
    exact pixel_of_refreshedPicture rfl hy hx
  case flags =>
    apply dirty_ext
    intro j hj
    rw [State.cleanAll_dirtyAt, drawn.flag, decide_eq_false (by omega), Bool.and_false]

/-! ## The reference layout -/

/-- The three plane bits, put together as `GfxDecode` does, and taken apart again. -/
theorem getLsbD_planeBits : ∀ b2 b1 b0 : Bool,
    let index : Pixel := BitVec.ofBool b2 ++ BitVec.ofBool b1 ++ BitVec.ofBool b0
    index.getLsbD 0 = b0 ∧ index.getLsbD 1 = b1 ∧ index.getLsbD 2 = b2 := by decide

/-- Plane `p` gives bit `p` of the index (R105). -/
theorem gfxDecode_layout_getLsbD {cfg : Cfg} {ps bs : Nat} {image : Memory} (h : cfg.gfx = .layout ps bs image)
    (bank : BitVec 2) (code : Byte) (y x : BitVec 3) {p : Nat} (hp : p < 3) :
    (gfxDecode cfg bank code y x).getLsbD p = planeBit ps bs image p bank code y x := by
  simp only [gfxDecode, h]
  obtain ⟨bit0, bit1, bit2⟩ := getLsbD_planeBits (planeBit ps bs image 2 bank code y x)
    (planeBit ps bs image 1 bank code y x) (planeBit ps bs image 0 bank code y x)
  obtain rfl | rfl | rfl : p = 0 ∨ p = 1 ∨ p = 2 := by omega
  · exact bit0
  · exact bit1
  · exact bit2

/-- Settles O45: the plane's bit, with the plane's byte written out. -/
theorem layoutTakesOneBitFromEachPlane : Obligations.LayoutTakesOneBitFromEachPlane :=
  fun _ _ _ _ bank code y x _ h hp => gfxDecode_layout_getLsbD h bank code y x hp

/-- The cells `0` to `n - 1` of a memory, each with the byte `g` gives it. -/
def memoryOf (n : Nat) (g : Nat → Byte) : Memory := (List.range n).map fun k => (k, g k)

theorem read_map_of_mem {ks : List Nat} {g : Nat → Byte} {k : Nat} (h : k ∈ ks) :
    Memory.read (ks.map fun k => (k, g k)) k = some (g k) := by
  induction ks with
  | nil => cases h
  | cons c ks ih =>
    simp only [List.map_cons, Memory.read_cons]
    split
    · subst c
      rfl
    · rename_i hne
      exact ih ((List.mem_cons.1 h).resolve_left (Ne.symm hne))

theorem read_memoryOf {n k : Nat} (g : Nat → Byte) (h : k < n) : Memory.read (memoryOf n g) k = some (g k) :=
  read_map_of_mem (List.mem_range.2 h)

/-- The byte at offset `k` of the graphics ROM that holds a given decode: `k` is plane, bank, code and row, and bit
`7 - x` is the plane's bit of the index at `x` (R105). -/
def imageByte (f : BitVec 2 → Byte → BitVec 3 → BitVec 3 → Pixel) (k : Nat) : Byte :=
  BitVec.ofFnLE fun j : Fin 8 =>
    (f (BitVec.ofNat 2 (k / 0x0800)) (BitVec.ofNat 8 (k / 8)) (BitVec.ofNat 3 k) (BitVec.ofNat 3 (7 - j.val))).getLsbD
      (k / 0x2000)

theorem ofNat_eq_of_mod {w n : Nat} {b : BitVec w} (h : n % 2 ^ w = b.toNat) : BitVec.ofNat w n = b :=
  BitVec.eq_of_toNat_eq ((BitVec.toNat_ofNat n w).trans h)

/-- The offset R105 gives a row byte names its plane, bank, code and row. -/
theorem imageByte_offset (f : BitVec 2 → Byte → BitVec 3 → BitVec 3 → Pixel) (p : Nat) (bank : BitVec 2) (code : Byte)
    (y x : BitVec 3) :
    (imageByte f (p * 0x2000 + bank.toNat * 0x0800 + code.toNat * 8 + y.toNat)).getLsbD (7 - x.toNat) =
      (f bank code y x).getLsbD p := by
  have hbank := bank.isLt
  have hcode := code.isLt
  have hy := y.isLt
  have hx := x.isLt
  generalize hk : p * 0x2000 + bank.toNat * 0x0800 + code.toNat * 8 + y.toNat = k
  have plane : k / 0x2000 = p := by omega
  have bankOf : BitVec.ofNat 2 (k / 0x0800) = bank := ofNat_eq_of_mod (by omega)
  have codeOf : BitVec.ofNat 8 (k / 8) = code := ofNat_eq_of_mod (by omega)
  have rowOf : BitVec.ofNat 3 k = y := ofNat_eq_of_mod (by omega)
  have columnOf : BitVec.ofNat 3 (7 - (7 - x.toNat)) = x := ofNat_eq_of_mod (by omega)
  have inByte : 7 - x.toNat < 8 := by omega
  simp [imageByte, inByte, plane, bankOf, codeOf, rowOf, columnOf]

theorem planeBit_image (f : BitVec 2 → Byte → BitVec 3 → BitVec 3 → Pixel) (bank : BitVec 2) (code : Byte)
    (y x : BitVec 3) {p : Nat} (hp : p < 3) :
    planeBit 0x2000 0x0800 (memoryOf 0x6000 (imageByte f)) p bank code y x = (f bank code y x).getLsbD p := by
  have hbank := bank.isLt
  have hcode := code.isLt
  have hy := y.isLt
  have listed : p * 0x2000 + bank.toNat * 0x0800 + code.toNat * 8 + y.toNat < 0x6000 := by omega
  rw [planeBit, planeByte, gfxByte, read_memoryOf _ listed, Option.getD_some, imageByte_offset]

/-- Settles O46: each bit of each index has a place of its own among the three planes, so an image can hold them all. -/
theorem everyDecodeHasAnImage : Obligations.EveryDecodeHasAnImage := by
  intro cfg f
  refine ⟨memoryOf 0x6000 (imageByte f), fun bank code y x => BitVec.eq_of_getLsbD_eq fun p hp => ?_⟩
  rw [gfxDecode_layout_getLsbD rfl bank code y x hp, planeBit_image f bank code y x hp]

end Sys2Proof.Machine
end
